-- ==== Sys2Proof/Word.lean ====
section
/-! DEFINITION. The plain types the whole model shares: bytes and wider numbers as the layouts of R149
send them, the numbers of ports, sources and lines, and tables of a fixed number of like things. -/

namespace Sys2Proof

/-- One byte of a frame (R135, R140). -/
abbrev Byte := BitVec 8

/-- A two-byte number: a limit, a threshold argument, a CONFIGURE or setting value (R149). -/
abbrev Half := BitVec 16

/-- A part time, an expiry time or a claimed at time, counted modulo 2^32 (R100, R149). -/
abbrev Time := BitVec 32

/-- A host port P0 to P3. -/
abbrev Port := Fin 4

/-- A source S0 to S95 (R1). -/
abbrev SourceNo := Fin 96

/-- An event line EV0 to EV63, the line of the wired source of the same number (R1). -/
abbrev LineNo := Fin 64

/-- A set of ports, bit n standing for Pn (R149). -/
abbrev PortSet := BitVec 4

/-- The direction of a qualified change: a qualified rise or a qualified fall (R45). -/
inductive Edge where
  | rise
  | fall
  deriving DecidableEq, Repr

/-- The level a line has after the change: high after a rise. -/
abbrev Edge.level : Edge → Bool
  | .rise => true
  | .fall => false

/-- The change that leaves a line at the given level. -/
abbrev Edge.toward : Bool → Edge
  | true => .rise
  | false => .fall

/-- What the hardware of the table check reports at its end (R155): nothing, a storage place that does not read
back, or a writable settings field whose storage does not hold an accepted value. -/
inductive CheckFinding where
  | nothing
  | storageFault
  | settingsFault
  deriving DecidableEq, Repr

/-- A table of `n` like things. -/
abbrev Table (α : Type) (n : Nat) := Vector α n

/-- The entry of a table at an index. -/
def Table.at {α : Type} {n : Nat} (t : Table α n) (i : Fin n) : α := t[i.val]

/-- The table with one entry replaced. -/
def Table.put {α : Type} {n : Nat} (t : Table α n) (i : Fin n) (x : α) : Table α n := t.set i.val x i.isLt

/-- The table whose entry at `i` is `f i`. -/
def Table.build {α : Type} {n : Nat} (f : Fin n → α) : Table α n := ⟨⟨(List.finRange n).map f⟩, by simp⟩

@[simp] theorem Table.at_put {α : Type} {n : Nat} (t : Table α n) (i j : Fin n) (x : α) :
    (t.put i x).at j = if i = j then x else t.at j := by
  simp [Table.at, Table.put, Vector.getElem_set, Fin.ext_iff]

@[simp] theorem Table.at_build {α : Type} {n : Nat} (f : Fin n → α) (i : Fin n) :
    (Table.build f).at i = f i := by
  simp [Table.at, Table.build]

/-- Two tables with the same entries are the same table. -/
theorem Table.ext_at {α : Type} {n : Nat} {t u : Table α n} (h : ∀ i, t.at i = u.at i) : t = u :=
  Vector.ext fun i hi => h ⟨i, hi⟩

@[simp] theorem Table.put_at {α : Type} {n : Nat} (t : Table α n) (i : Fin n) : t.put i (t.at i) = t :=
  Table.ext_at fun j => by simp only [Table.at_put]; split <;> simp_all

end Sys2Proof
end

