-- ==== Sys2Proof/Config.lean ====
section
/-! DEFINITION. The fixed numbers of the part (00_scope.md section 3) and the command codes' names (R150). The
spec leaves no value of the machine undefined, so there is no free value here. -/

namespace Sys2Proof.Config

/-- Claim list capacity: 8 entries a port (R81). -/
abbrev claimCapacity : Nat := 8

/-- Incident queue capacity: 8 records a port (R122). -/
abbrev queueCapacity : Nat := 8

/-- The largest merged count (R49). -/
abbrev maxCount : Nat := 15

/-- The threshold after a reset, which admits every level (R66). -/
abbrev openThreshold : Nat := 257

/-- The running level of a port without a HELD entry (R68). -/
abbrev idleLevel : Nat := 257

/-- The level of an unnumbered LOW-band source (R63). -/
abbrev unnumberedLowLevel : Nat := 256

/-- WAKING lasts 20 µs of part time (R163). -/
abbrev wakingTime : Nat := 20

/-- The table check ends no later than 48 µs after INIT entry (R155). -/
abbrev initLimit : Nat := 48

end Sys2Proof.Config

namespace Sys2Proof

/-- The commands of the code table of R150. CONFIGURE and WRITE_SETTING are one code each; the opcode table has a
row for each of their fields. -/
inductive HostCode where
  | status | top | claimTop | claim | complete | defer | listClaims | setThreshold
  | post | bind | unbind | configure | readSource | enable | disable | lend | recallLoan | returnLoan
  | readIncident | portClear | repeatAnswer
  | readSetting | writeSetting | watch | dormant | wake | reset
  deriving DecidableEq, Repr

end Sys2Proof
end

