-- ==== Sys2Proof/Syntax.lean ====
section
/-! DEFINITION. The commands of the part: one constructor for each row of spec/opcode_table.json. A host command
carries its sender `p` and its raw argument bytes (R150), so that an argument out of range can be written and is
answered as its rule says. -/

namespace Sys2Proof

/-- The 56 rows of the opcode table. -/
inductive Instr where
  -- Status, ranking and claims
  | status (p : Port)
  | top (p : Port)
  | claimTop (p : Port)
  | claim (p : Port) (source : Byte)
  | complete (p : Port) (source : Byte)
  | defer (p : Port) (source : Byte)
  | listClaims (p : Port)
  | setThreshold (p : Port) (threshold : Half)
  -- Posting and binding
  | post (p : Port) (source : Byte)
  | bind (p : Port) (source : Byte)
  | unbind (p : Port) (source : Byte)
  -- Configuration of a record
  | configurePriority (p : Port) (source : Byte) (value : Half)
  | configureGroup (p : Port) (source : Byte) (value : Half)
  | configureTrigger (p : Port) (source : Byte) (value : Half)
  | configureQualify (p : Port) (source : Byte) (value : Half)
  | configureWaitLimit (p : Port) (source : Byte) (value : Half)
  | configureServiceLimit (p : Port) (source : Byte) (value : Half)
  | configureFallback (p : Port) (source : Byte) (value : Half)
  | configurePosters (p : Port) (source : Byte) (value : Half)
  | readSource (p : Port) (source : Byte)
  | enable (p : Port) (source : Byte)
  | disable (p : Port) (source : Byte)
  -- Lending
  | lend (p : Port) (source : Byte) (borrower : Byte)
  | recallLoan (p : Port) (source : Byte)
  | returnLoan (p : Port) (source : Byte)
  -- Incidents and port clear
  | readIncident (p : Port)
  | portClear (p : Port)
  | portClearOfferUnitPart (p : Port)
  | portClearSourceTablePart (p : Port)
  -- The repeat store and the settings page
  | repeatAnswer (p : Port)
  | readSetting (p : Port) (identifier : Byte)
  | writeSettingControlSet (p : Port) (value : Half)
  | writeSettingWatchHoldGroupMask (p : Port) (value : Half)
  | writeSettingWatchHoldSegmentMask (p : Port) (value : Half)
  | writeSettingLastResetCause (p : Port) (value : Half)
  -- Power commands
  | watch (p : Port)
  | dormant (p : Port)
  | wake (p : Port)
  | reset (p : Port)
  -- The serial ports: `bytes` are the bytes received since chip-select fell, the check byte the last of them
  | chipSelectFall (p : Port)
  | frameComplete (p : Port) (bytes : List Byte)
  | answerFrameSent (p : Port)
  | chipSelectRise (p : Port)
  -- The event lines
  | lineRawChange (line : LineNo) (high : Bool)
  | qualifyTimeReached (line : LineNo)
  | qualifiedChange (line : LineNo) (edge : Edge)
  | wakeReport
  -- Deadlines
  | timerExpiryDelivered (source : SourceNo)
  | waitExpiry (source : SourceNo)
  | serviceExpiry (source : SourceNo)
  -- Power Control and the reset pins
  | wakingEnd
  | tableCheck (found : CheckFinding)
  | powerOn
  | resetnLow
  | resetnRelease
  | supplyAndRefclkReady
  deriving DecidableEq, Repr

end Sys2Proof
end

