-- ==== Sys2Proof/Decode.lean ====
section
/-! DEFINITION. The command frames of the serial ports: the check byte (R136), the parts of a frame (R135), the command
code table (R150), the command a frame names, and the frame a command is sent in. Also the fixed name
decodeTableWord: spec/opcode_table.json gives no bits for any row, so no word spells a command. -/

namespace Sys2Proof

/-! ## Numbers of more than one byte, most significant byte first (R149) -/

/-- The two bytes of a two-byte number. -/
def halfBytes (v : Half) : List Byte := [v.extractLsb' 8 8, v.extractLsb' 0 8]

/-- The two-byte number of two bytes. -/
def halfOf (high low : Byte) : Half := high ++ low

/-- The four bytes of a time. -/
def timeBytes (t : Time) : List Byte :=
  [t.extractLsb' 24 8, t.extractLsb' 16 8, t.extractLsb' 8 8, t.extractLsb' 0 8]

/-! ## The check byte (R136) -/

/-- One bit of the CRC-8 with polynomial 07h, most significant bit first. -/
def crcBit (c : Byte) : Byte := if c.msb then (c <<< 1) ^^^ 0x07#8 else c <<< 1

/-- The CRC-8 taken on by one byte. -/
def crcByte (c b : Byte) : Byte :=
  crcBit (crcBit (crcBit (crcBit (crcBit (crcBit (crcBit (crcBit (c ^^^ b))))))))

/-- The check byte over the bytes before it, from the initial value 00h. -/
def crc8 (bytes : List Byte) : Byte := bytes.foldl crcByte 0#8

/-! ## The parts of a command frame (R135) -/

/-- A received command frame. -/
structure Frame where
  code   : Byte
  length : Byte
  args   : List Byte
  check  : Byte
  deriving DecidableEq, Repr

/-- The frame that the bytes since the fall of chip-select complete, none while the check byte is still to come. The
length byte decides where the frame ends, whatever the code (R135); bytes after it belong to no frame (R134). -/
def parseFrame : List Byte → Option Frame
  | code :: length :: rest =>
    match rest.drop length.toNat with
    | check :: _ => some ⟨code, length, rest.take length.toNat, check⟩
    | [] => none
  | _ => none

/-- Whether the check byte equals the value over the code, the length and every argument byte (R136). -/
def Frame.checkRight (f : Frame) : Bool := crc8 (f.code :: f.length :: f.args) == f.check

/-! ## The command code table (R150) -/

/-- The code byte of a command. -/
def HostCode.byte : HostCode → Byte
  | .status => 0x01#8
  | .top => 0x02#8
  | .claimTop => 0x03#8
  | .claim => 0x04#8
  | .complete => 0x05#8
  | .defer => 0x06#8
  | .listClaims => 0x07#8
  | .setThreshold => 0x08#8
  | .post => 0x10#8
  | .bind => 0x11#8
  | .unbind => 0x12#8
  | .configure => 0x13#8
  | .readSource => 0x14#8
  | .enable => 0x15#8
  | .disable => 0x16#8
  | .lend => 0x17#8
  | .recallLoan => 0x18#8
  | .returnLoan => 0x19#8
  | .readIncident => 0x20#8
  | .portClear => 0x21#8
  | .repeatAnswer => 0x22#8
  | .readSetting => 0x30#8
  | .writeSetting => 0x31#8
  | .watch => 0x32#8
  | .dormant => 0x33#8
  | .wake => 0x34#8
  | .reset => 0x3F#8

/-- The number of argument bytes of a command. -/
def HostCode.argLength : HostCode → Nat
  | .status | .top | .claimTop | .listClaims | .readIncident | .portClear | .repeatAnswer
  | .watch | .dormant | .wake | .reset => 0
  | .claim | .complete | .defer | .post | .bind | .unbind | .readSource | .enable | .disable
  | .recallLoan | .returnLoan | .readSetting => 1
  | .setThreshold | .lend => 2
  | .writeSetting => 3
  | .configure => 4

/-- Every command code. -/
def HostCode.all : List HostCode :=
  [.status, .top, .claimTop, .claim, .complete, .defer, .listClaims, .setThreshold,
   .post, .bind, .unbind, .configure, .readSource, .enable, .disable, .lend, .recallLoan, .returnLoan,
   .readIncident, .portClear, .repeatAnswer,
   .readSetting, .writeSetting, .watch, .dormant, .wake, .reset]

/-- The command of a code byte, none where the code is not in the table. -/
def HostCode.ofByte (b : Byte) : Option HostCode := HostCode.all.find? fun c => c.byte == b

/-! ## The command a frame names -/

/-- What the arguments of a known code name: a row of the opcode table, a CONFIGURE or WRITE_SETTING whose identifier
no row has (its owner answers it BAD_ARGUMENT: R10, R168), or arguments of a wrong length (R137). -/
inductive Decoded where
  | row (c : Instr)
  | unknownIdentifier
  | wrongLength
  deriving DecidableEq, Repr

/-- The row of CONFIGURE's field identifier (R10). -/
def configureRow (p : Port) (source field : Byte) (value : Half) : Decoded :=
  match field.toNat with
  | 1 => .row (.configurePriority p source value)
  | 2 => .row (.configureGroup p source value)
  | 3 => .row (.configureTrigger p source value)
  | 4 => .row (.configureQualify p source value)
  | 5 => .row (.configureWaitLimit p source value)
  | 6 => .row (.configureServiceLimit p source value)
  | 7 => .row (.configureFallback p source value)
  | 8 => .row (.configurePosters p source value)
  | _ => .unknownIdentifier

/-- The row of WRITE_SETTING's setting identifier (R152). -/
def writeSettingRow (p : Port) (identifier : Byte) (value : Half) : Decoded :=
  match identifier.toNat with
  | 0 => .row (.writeSettingControlSet p value)
  | 1 => .row (.writeSettingWatchHoldGroupMask p value)
  | 2 => .row (.writeSettingWatchHoldSegmentMask p value)
  | 3 => .row (.writeSettingLastResetCause p value)
  | _ => .unknownIdentifier

/-- A command without arguments. -/
def takingNone (c : Instr) : List Byte → Decoded
  | [] => .row c
  | _ :: _ => .wrongLength

/-- A command of one argument byte. -/
def takingOne (c : Byte → Instr) : List Byte → Decoded
  | [x] => .row (c x)
  | [] | _ :: _ :: _ => .wrongLength

/-- A command of two argument bytes. -/
def takingTwo (c : Byte → Byte → Instr) : List Byte → Decoded
  | [x, y] => .row (c x y)
  | [] | [_] | _ :: _ :: _ :: _ => .wrongLength

/-- WRITE_SETTING: a setting identifier and a value. -/
def takingSetting (p : Port) : List Byte → Decoded
  | [i, h, l] => writeSettingRow p i (halfOf h l)
  | [] | [_] | [_, _] | _ :: _ :: _ :: _ :: _ => .wrongLength

/-- CONFIGURE: a source, a field identifier and a value. -/
def takingField (p : Port) : List Byte → Decoded
  | [s, f, h, l] => configureRow p s f (halfOf h l)
  | [] | [_] | [_, _] | [_, _, _] | _ :: _ :: _ :: _ :: _ :: _ => .wrongLength

/-- The command of a code and its argument bytes, sent by port `p` (R150). -/
def decodeCommand (p : Port) (code : HostCode) (args : List Byte) : Decoded :=
  match code with
  | .status => takingNone (.status p) args
  | .top => takingNone (.top p) args
  | .claimTop => takingNone (.claimTop p) args
  | .claim => takingOne (.claim p) args
  | .complete => takingOne (.complete p) args
  | .defer => takingOne (.defer p) args
  | .listClaims => takingNone (.listClaims p) args
  | .setThreshold => takingTwo (fun h l => .setThreshold p (halfOf h l)) args
  | .post => takingOne (.post p) args
  | .bind => takingOne (.bind p) args
  | .unbind => takingOne (.unbind p) args
  | .configure => takingField p args
  | .readSource => takingOne (.readSource p) args
  | .enable => takingOne (.enable p) args
  | .disable => takingOne (.disable p) args
  | .lend => takingTwo (.lend p) args
  | .recallLoan => takingOne (.recallLoan p) args
  | .returnLoan => takingOne (.returnLoan p) args
  | .readIncident => takingNone (.readIncident p) args
  | .portClear => takingNone (.portClear p) args
  | .repeatAnswer => takingNone (.repeatAnswer p) args
  | .readSetting => takingOne (.readSetting p) args
  | .writeSetting => takingSetting p args
  | .watch => takingNone (.watch p) args
  | .dormant => takingNone (.dormant p) args
  | .wake => takingNone (.wake p) args
  | .reset => takingNone (.reset p) args

/-- The sender, the code and the argument bytes of a host command; none for a happening that no frame brings. -/
def Instr.hostForm : Instr → Option (Port × HostCode × List Byte)
  | .status p => some (p, .status, [])
  | .top p => some (p, .top, [])
  | .claimTop p => some (p, .claimTop, [])
  | .claim p s => some (p, .claim, [s])
  | .complete p s => some (p, .complete, [s])
  | .defer p s => some (p, .defer, [s])
  | .listClaims p => some (p, .listClaims, [])
  | .setThreshold p t => some (p, .setThreshold, halfBytes t)
  | .post p s => some (p, .post, [s])
  | .bind p s => some (p, .bind, [s])
  | .unbind p s => some (p, .unbind, [s])
  | .configurePriority p s v => some (p, .configure, s :: 1#8 :: halfBytes v)
  | .configureGroup p s v => some (p, .configure, s :: 2#8 :: halfBytes v)
  | .configureTrigger p s v => some (p, .configure, s :: 3#8 :: halfBytes v)
  | .configureQualify p s v => some (p, .configure, s :: 4#8 :: halfBytes v)
  | .configureWaitLimit p s v => some (p, .configure, s :: 5#8 :: halfBytes v)
  | .configureServiceLimit p s v => some (p, .configure, s :: 6#8 :: halfBytes v)
  | .configureFallback p s v => some (p, .configure, s :: 7#8 :: halfBytes v)
  | .configurePosters p s v => some (p, .configure, s :: 8#8 :: halfBytes v)
  | .readSource p s => some (p, .readSource, [s])
  | .enable p s => some (p, .enable, [s])
  | .disable p s => some (p, .disable, [s])
  | .lend p s q => some (p, .lend, [s, q])
  | .recallLoan p s => some (p, .recallLoan, [s])
  | .returnLoan p s => some (p, .returnLoan, [s])
  | .readIncident p => some (p, .readIncident, [])
  | .portClear p => some (p, .portClear, [])
  | .repeatAnswer p => some (p, .repeatAnswer, [])
  | .readSetting p i => some (p, .readSetting, [i])
  | .writeSettingControlSet p v => some (p, .writeSetting, 0#8 :: halfBytes v)
  | .writeSettingWatchHoldGroupMask p v => some (p, .writeSetting, 1#8 :: halfBytes v)
  | .writeSettingWatchHoldSegmentMask p v => some (p, .writeSetting, 2#8 :: halfBytes v)
  | .writeSettingLastResetCause p v => some (p, .writeSetting, 3#8 :: halfBytes v)
  | .watch p => some (p, .watch, [])
  | .dormant p => some (p, .dormant, [])
  | .wake p => some (p, .wake, [])
  | .reset p => some (p, .reset, [])
  | .portClearOfferUnitPart _ | .portClearSourceTablePart _ => none
  | .chipSelectFall _ | .frameComplete _ _ | .answerFrameSent _ | .chipSelectRise _ => none
  | .lineRawChange _ _ | .qualifyTimeReached _ | .qualifiedChange _ _ | .wakeReport => none
  | .timerExpiryDelivered _ | .waitExpiry _ | .serviceExpiry _ => none
  | .wakingEnd | .tableCheck _ | .powerOn | .resetnLow | .resetnRelease | .supplyAndRefclkReady => none

/-- The frame of a code and its argument bytes, with its check byte (R135, R136). -/
def frameOf (code : HostCode) (args : List Byte) : List Byte :=
  let body := code.byte :: BitVec.ofNat 8 args.length :: args
  body ++ [crc8 body]

/-- The frame a host sends for a command; none for a happening that no frame brings. -/
def encode (c : Instr) : Option (List Byte) :=
  match c.hostForm with
  | some (_, code, args) => some (frameOf code args)
  | none => none

/-- The row that a well-formed frame of port `p` names: its check byte is right, its code and identifier are in the
tables and its length is the one its code has (R137). -/
def decode (p : Port) (bytes : List Byte) : Option Instr :=
  match parseFrame bytes with
  | none => none
  | some f =>
    if f.checkRight then
      match HostCode.ofByte f.code with
      | none => none
      | some code =>
        match decodeCommand p code f.args with
        | .row c => some c
        | .unknownIdentifier => none
        | .wrongLength => none
    else none

/-- The command that a word spells by the opcode table's bits. The table gives bits for none of its rows, so no word
spells one. -/
def decodeTableWord (_nbits _w : Nat) : Option Instr := none

end Sys2Proof
end

