-- ==== Sys2Proof/Machine/State.lean ====
section
/-! DEFINITION. Everything the spec gives the part, block by block (00_scope.md section 2), as plain data, and the state
right after the power-on full reset. INVENTORY.md, under State, names the rule of each field. -/

namespace Sys2Proof.Machine

/-! ## The Source Table -/

/-- The trigger kinds (R3). -/
inductive Trigger where
  | rising
  | falling
  | both
  | high
  | low
  deriving DecidableEq, Repr

/-- The four source states (R4). The claimant is present exactly in CLAIMED. -/
inductive SrcState where
  | quiet
  | pending
  | escalated
  | claimed (claimant : Port)
  deriving DecidableEq, Repr

/-- The configurable and state fields of a source record (01 section 1.1). The fixed fields are functions of the
source number. -/
structure SourceRec where
  binder       : Option Port
  borrower     : Option Port
  fallback     : Option Port
  posters      : PortSet
  enabled      : Bool
  trigger      : Trigger
  qualify      : Fin 16
  priority     : Fin 256
  group        : Fin 8
  waitLimit    : Half
  serviceLimit : Half
  state        : SrcState
  count        : Nat
  deriving DecidableEq, Repr

/-- The default record (R5). -/
def SourceRec.default : SourceRec where
  binder := none
  borrower := none
  fallback := none
  posters := 0#4
  enabled := false
  trigger := .rising
  qualify := 0
  priority := 0
  group := 0
  waitLimit := 0#16
  serviceLimit := 0#16
  state := .quiet
  count := 0

/-- The statuses of a claim entry (R81). -/
inductive EntryStatus where
  | held
  | retracted
  deriving DecidableEq, Repr

/-- An entry of a claim list (R81). -/
structure ClaimEntry where
  source    : SourceNo
  level     : Nat
  status    : EntryStatus
  claimedAt : Time
  deriving DecidableEq, Repr

/-! ## The Deadline Unit -/

/-- The timer kinds (R102). -/
inductive TimerKind where
  | wait
  | service
  deriving DecidableEq, Repr

/-- A timer of a source (R102). `delivered`: its expiry has been delivered to the Source Table and not yet been
taken there (R105). -/
structure Timer where
  kind      : TimerKind
  expiry    : Time
  delivered : Bool
  deriving DecidableEq, Repr

/-! ## The Line Sampler -/

/-- One event line: the level at its pin and the sampler's state for it (03 section 3.1). `reports` are the qualified
changes reported and not yet taken at the Source Table, oldest first (R45); `span` is the start time of a qualification
span in progress, in the sampler's own measure (R44). -/
structure Line where
  pin       : Bool
  raw       : Bool
  qualified : Bool
  span      : Option Nat
  reports   : List Edge
  deriving DecidableEq, Repr

/-- A line at its reset values, its pin low. -/
def Line.default : Line where
  pin := false
  raw := false
  qualified := false
  span := none
  reports := []

/-! ## The Offer Unit -/

/-- What the Offer Unit holds for a port (00 section 2, R66, R76, R77). -/
structure OfferPort where
  threshold    : Nat
  lastReported : Option SourceNo
  changed      : Bool
  attention    : Bool
  deriving DecidableEq, Repr

/-- The reset values of R79. -/
def OfferPort.default : OfferPort where
  threshold := Config.openThreshold
  lastReported := none
  changed := false
  attention := false

/-! ## The Incident Queues -/

/-- The incident kinds (R123). -/
inductive IncidentKind where
  | escalated
  | retracted
  | withdrawn
  | countSaturated
  | loanEnded
  | released
  deriving DecidableEq, Repr

/-- An incident record (R123). -/
structure Incident where
  kind   : IncidentKind
  source : SourceNo
  port   : Option Port
  detail : Byte
  time   : Time
  deriving DecidableEq, Repr

/-- An Incident Queue (R122). -/
structure IncidentQueue where
  records  : List Incident
  overflow : Bool
  deriving DecidableEq, Repr

/-- An empty queue with its flag clear. -/
def IncidentQueue.default : IncidentQueue where
  records := []
  overflow := false

/-! ## The Link Interfaces -/

/-- The results of an answer (08 section 8.7.3). -/
inductive Result where
  | ok | notReady | asleep | badCheck | unknown | badArgument | denied | inUse | busy
  | nothingOffered | notOffered | taken | full | notClaimed | tooLate | disabled | empty
  | lent | notLent | readOnly | noAnswer
  deriving DecidableEq, Repr

/-- An answer with the code it answers: what the repeat store holds (R144), and what goes out as the answer frame. -/
structure Answer where
  code    : Byte
  result  : Result
  payload : List Byte
  deriving DecidableEq, Repr

/-- The transaction states (R134). -/
inductive Transaction where
  | deselected
  | receiving
  | processing
  | answering
  | draining
  deriving DecidableEq, Repr

/-- A command that a Link Interface holds (R139): its code, its row (none where its identifier is no row's), and
whether the transaction that brought it is still open (R140). -/
structure Held where
  code : HostCode
  row  : Option Instr
  isOpen : Bool
  deriving DecidableEq, Repr

/-- The progress of a port clear: none stands, or the part that is handed on next (R147). -/
inductive ClearPhase where
  | idle
  | offerUnitNext
  | sourceTableNext
  deriving DecidableEq, Repr

/-- One Link Interface. `answerFrame` is the model's own register: the answer that goes out in the port's present
transaction or went out in its last one, none where it has none (log 12). -/
structure Link where
  transaction : Transaction
  inHand      : Option Held
  waiting     : Option Held
  clearing    : ClearPhase
  repeatStore : Option Answer
  answerFrame : Option Answer
  deriving DecidableEq, Repr

/-- A deselected Link Interface with nothing in hand and an empty repeat store. -/
def Link.default : Link where
  transaction := .deselected
  inHand := none
  waiting := none
  clearing := .idle
  repeatStore := none
  answerFrame := none

/-! ## Power Control -/

/-- The power states (09 section 9.1). -/
inductive PowerState where
  | init
  | active
  | watch
  | waking
  | dormant
  | failed
  deriving DecidableEq, Repr

/-- The last reset cause (R152, R166). -/
inductive ResetCause where
  | powerOn
  | pin
  | command (issuer : Port)
  | dormantExit
  deriving DecidableEq, Repr

/-- The settings page (R166). -/
structure Settings where
  controlSet     : PortSet
  groupMask      : BitVec 8
  segmentMask    : BitVec 8
  lastResetCause : ResetCause
  deriving DecidableEq, Repr

/-- The settings page after a full reset of the given cause (R153, R166). -/
def Settings.fresh (cause : ResetCause) : Settings where
  controlSet := 0xF#4
  groupMask := 0#8
  segmentMask := 0#8
  lastResetCause := cause

/-- What holds the part in reset (R154): nothing, a hold that began with the supply coming up, or a RESETn that fell
while the supply was in range. -/
inductive Hold where
  | released
  | powerOn
  | pin
  deriving DecidableEq, Repr

/-! ## Stops -/

/-- Why a step could stop with a fault. The spec names no happening that stops the part, so there is no reason: no
command raises one. -/
inductive Fault where
  deriving DecidableEq, Repr

/-- Why a step could be refused. -/
inductive Refusal where
  /-- An instruction of the opcode table without a meaning yet. Raised by a refused arm of `exec` only, of which there
  is none. Safe. -/
  | notModelled (mnemonic : String)
  deriving DecidableEq, Repr

/-! ## The state -/

/-- The whole part. -/
structure State where
  sources      : Table SourceRec 96
  claims       : Table (List ClaimEntry) 4
  timers       : Table (Option Timer) 96
  partTime     : Time
  lines        : Table Line 64
  samplerTime  : Nat
  offers       : Table OfferPort 4
  queues       : Table IncidentQueue 4
  links        : Table Link 4
  power        : PowerState
  wakingSince  : Time
  initTime     : Nat
  wakeReports  : Nat
  resetnLow    : Bool
  supplyReady  : Bool
  hold         : Hold
  settings     : Settings
  pending      : List Instr
  deriving DecidableEq, Repr

/-- The state right after the power-on full reset (R153, R154): every block at its reset value, INIT with the table check
begun, RESETn high, the supply ready, every chip-select high and every event line low (log 1, log 7). -/
def State.reset : State where
  sources := Vector.replicate 96 SourceRec.default
  claims := Vector.replicate 4 []
  timers := Vector.replicate 96 none
  partTime := 0#32
  lines := Vector.replicate 64 Line.default
  samplerTime := 0
  offers := Vector.replicate 4 OfferPort.default
  queues := Vector.replicate 4 IncidentQueue.default
  links := Vector.replicate 4 Link.default
  power := .init
  wakingSince := 0#32
  initTime := 0
  wakeReports := 0
  resetnLow := false
  supplyReady := true
  hold := .released
  settings := Settings.fresh .powerOn
  pending := []

end Sys2Proof.Machine
end

