-- ==== Sys2Proof/Machine/Operands.lean ====
section
/-! DEFINITION. The argument checks of the commands and the encodings of values in arguments and payloads (R149, R152). -/

namespace Sys2Proof

/-- Whether the port is in the set. -/
def PortSet.has (set : PortSet) (p : Port) : Bool := set.getLsbD p.val

/-- The set that holds the one port. -/
def PortSet.only (p : Port) : PortSet := 1#4 <<< p.val

end Sys2Proof

namespace Sys2Proof.Machine

/-! ## Arguments -/

/-- The source an argument byte names, none from 96 on (R9). -/
def sourceArg (b : Byte) : Option SourceNo := if h : b.toNat < 96 then some ⟨b.toNat, h⟩ else none

/-- The port LEND's argument byte names, none from 4 on (R28). -/
def portArg (b : Byte) : Option Port := if h : b.toNat < 4 then some ⟨b.toNat, h⟩ else none

/-- The setting an identifier byte names, none from 4 on (R152, R167). -/
def settingArg (b : Byte) : Option (Fin 4) := if h : b.toNat < 4 then some ⟨b.toNat, h⟩ else none

/-- The trigger a CONFIGURE value names (R10). -/
def triggerArg (v : Half) : Option Trigger :=
  match v.toNat with
  | 0 => some .rising
  | 1 => some .falling
  | 2 => some .both
  | 3 => some .high
  | 4 => some .low
  | _ => none

/-- The fallback a CONFIGURE value names: a port, or none for 4 (R10). -/
def fallbackArg (v : Half) : Option (Option Port) :=
  if h : v.toNat < 4 then some (some ⟨v.toNat, h⟩) else if v.toNat = 4 then some none else none

/-- The number a CONFIGURE value gives where it is below the bound (R10). -/
def boundedArg (n : Nat) (v : Half) : Option (Fin n) := if h : v.toNat < n then some ⟨v.toNat, h⟩ else none

/-- The set of ports a CONFIGURE POSTERS value names (R10). -/
def portSetArg (v : Half) : Option PortSet := if v.toNat < 16 then some (v.setWidth 4) else none

/-- The control set a WRITE_SETTING value names: high byte 0, low byte 1 to 15 (R168). -/
def controlSetArg (v : Half) : Option PortSet :=
  if 0 < v.toNat ∧ v.toNat < 16 then some (v.setWidth 4) else none

/-- The mask a WRITE_SETTING value names: high byte 0 (R168). -/
def maskArg (v : Half) : Option (BitVec 8) := if v.toNat < 256 then some (v.setWidth 8) else none

/-! ## Encodings -/

/-- A number in one byte. -/
def byteOf (n : Nat) : Byte := BitVec.ofNat 8 n

/-- A number in two bytes, high byte first. -/
def halfBytesOf (n : Nat) : List Byte := halfBytes (BitVec.ofNat 16 n)

/-- A port, or none as 4. -/
def portByte : Option Port → Byte
  | some p => byteOf p.val
  | none => 4#8

/-- A source state: 0 QUIET, 1 PENDING, 2 ESCALATED, 3 CLAIMED. -/
def SrcState.byte : SrcState → Byte
  | .quiet => 0#8
  | .pending => 1#8
  | .escalated => 2#8
  | .claimed _ => 3#8

/-- The claimant, present in CLAIMED alone. -/
def SrcState.claimant : SrcState → Option Port
  | .claimed p => some p
  | _ => none

/-- A trigger: 0 RISING, 1 FALLING, 2 BOTH, 3 HIGH, 4 LOW. -/
def Trigger.byte : Trigger → Byte
  | .rising => 0#8
  | .falling => 1#8
  | .both => 2#8
  | .high => 3#8
  | .low => 4#8

/-- A power state: 0 INIT, 1 ACTIVE, 2 WATCH, 3 WAKING, 4 DORMANT, 5 FAILED. -/
def PowerState.byte : PowerState → Byte
  | .init => 0#8
  | .active => 1#8
  | .watch => 2#8
  | .waking => 3#8
  | .dormant => 4#8
  | .failed => 5#8

/-- A timer kind: 0 none, 1 WAIT, 2 SERVICE. -/
def timerKindByte : Option Timer → Byte
  | none => 0#8
  | some t =>
    match t.kind with
    | .wait => 1#8
    | .service => 2#8

/-- An incident kind: 1 ESCALATED to 6 RELEASED. -/
def IncidentKind.byte : IncidentKind → Byte
  | .escalated => 1#8
  | .retracted => 2#8
  | .withdrawn => 3#8
  | .countSaturated => 4#8
  | .loanEnded => 5#8
  | .released => 6#8

/-- A last reset cause as the setting's two bytes: the cause, then the RESET issuer or 4 (R152). -/
def ResetCause.bytes : ResetCause → List Byte
  | .powerOn => [0#8, 4#8]
  | .pin => [1#8, 4#8]
  | .command p => [2#8, byteOf p.val]
  | .dormantExit => [3#8, 4#8]

/-- The result codes of 08 section 8.7.3. -/
def Result.byte : Result → Byte
  | .ok => 0x00#8
  | .notReady => 0x01#8
  | .asleep => 0x02#8
  | .badCheck => 0x03#8
  | .unknown => 0x04#8
  | .badArgument => 0x05#8
  | .denied => 0x06#8
  | .inUse => 0x07#8
  | .busy => 0x08#8
  | .nothingOffered => 0x09#8
  | .notOffered => 0x0A#8
  | .taken => 0x0B#8
  | .full => 0x0C#8
  | .notClaimed => 0x0D#8
  | .tooLate => 0x0E#8
  | .disabled => 0x0F#8
  | .empty => 0x10#8
  | .lent => 0x11#8
  | .notLent => 0x12#8
  | .readOnly => 0x13#8
  | .noAnswer => 0x14#8

/-- The answer frame on the wire: marker, result, length, payload, check byte (R140, R136). -/
def Answer.wire (a : Answer) : List Byte :=
  let body := a.result.byte :: byteOf a.payload.length :: a.payload
  0xA5#8 :: (body ++ [crc8 body])

end Sys2Proof.Machine
end

