-- ==== Sys2Proof/Machine/Flags.lean ====
section
/-! DEFINITION. The flags bytes of the answer payloads (R149: each flag one bit, the other bits read 0; R151). The part has
no arithmetic flags; these four layouts are every flags byte the payload tables give. -/

namespace Sys2Proof.Machine

/-- A byte whose bits 0 to 3 are the given flags. -/
def flagsByte (bit0 bit1 bit2 bit3 : Bool) : Byte :=
  (if bit0 then 1#8 else 0#8) ||| (if bit1 then 2#8 else 0#8) ||| (if bit2 then 4#8 else 0#8) |||
    (if bit3 then 8#8 else 0#8)

/-- Table A, byte 5: overflow, top-changed, attention asserted. -/
def statusFlags (overflow changed attention : Bool) : Byte := flagsByte overflow changed attention false

/-- Tables B and C and the TOO_LATE payload: top present, unnumbered, escalated. -/
def offerFlags (present unnumbered escalated : Bool) : Byte := flagsByte present unnumbered escalated false

/-- Table D: unnumbered and RETRACTED. -/
def entryFlags (unnumbered retracted : Bool) : Byte := flagsByte false unnumbered false retracted

/-- Table E, byte 1: POSTED kind, HIGH band, enabled, qualified line level high. -/
def sourceFlags (posted highBand enabled lineHigh : Bool) : Byte := flagsByte posted highBand enabled lineHigh

/-- Table F, byte 8, and the EMPTY payload: overflow. -/
def overflowFlags (overflow : Bool) : Byte := flagsByte overflow false false false

end Sys2Proof.Machine
end

