-- ==== Sys2Proof/Machine/Ops.lean ====
section
/-! DEFINITION. The shared operations on the blocks' state: reading and replacing one record, list, timer, line or queue,
the fixed fields of a source, timers, incident writes, counting and the taking of an event. -/

namespace Sys2Proof.Machine

/-! ## Reading and replacing one piece of state -/

def State.source (s : State) (i : SourceNo) : SourceRec := s.sources.at i
def State.setSource (s : State) (i : SourceNo) (r : SourceRec) : State := { s with sources := s.sources.put i r }

def State.claimList (s : State) (p : Port) : List ClaimEntry := s.claims.at p
def State.setClaimList (s : State) (p : Port) (l : List ClaimEntry) : State := { s with claims := s.claims.put p l }

def State.timer (s : State) (i : SourceNo) : Option Timer := s.timers.at i
def State.setTimer (s : State) (i : SourceNo) (t : Option Timer) : State := { s with timers := s.timers.put i t }

def State.line (s : State) (n : LineNo) : Line := s.lines.at n
def State.setLine (s : State) (n : LineNo) (l : Line) : State := { s with lines := s.lines.put n l }

def State.offer (s : State) (p : Port) : OfferPort := s.offers.at p
def State.setOffer (s : State) (p : Port) (o : OfferPort) : State := { s with offers := s.offers.put p o }

def State.queue (s : State) (p : Port) : IncidentQueue := s.queues.at p
def State.setQueue (s : State) (p : Port) (q : IncidentQueue) : State := { s with queues := s.queues.put p q }

def State.link (s : State) (p : Port) : Link := s.links.at p
def State.setLink (s : State) (p : Port) (l : Link) : State := { s with links := s.links.put p l }

/-! ## The fixed fields of a source (R1, R2) -/

/-- S64 to S95 are POSTED, the others WIRED. -/
def isPosted (i : SourceNo) : Bool := 64 ≤ i.val

/-- S0 to S7 and S64 to S71 lie in the HIGH band. -/
def isHighBand (i : SourceNo) : Bool := i.val < 8 || (64 ≤ i.val && i.val < 72)

/-- The segment: the source number divided by 12, rounded down. -/
def segmentOf (i : SourceNo) : Nat := i.val / 12

/-- The default position, 0 the most urgent: S0 to S7, S64 to S71, S8 to S63, S72 to S95. -/
def defaultPosition (i : SourceNo) : Nat :=
  if i.val < 8 then i.val
  else if i.val < 64 then i.val + 8
  else if i.val < 72 then i.val - 56
  else i.val

/-- The event line of a wired source, none for a posted one. -/
def lineOf (i : SourceNo) : Option LineNo := if h : i.val < 64 then some ⟨i.val, h⟩ else none

/-- The wired source of a line. -/
def sourceOf (n : LineNo) : SourceNo := ⟨n.val, by omega⟩

/-! ## Lines -/

/-- Whether the trigger is HIGH or LOW: a level source (R51). -/
def Trigger.isLevel : Trigger → Bool
  | .high | .low => true
  | .rising | .falling | .both => false

/-- The qualified level of a wired source's line; low for a posted source (R24). -/
def State.qualifiedLevel (s : State) (i : SourceNo) : Bool :=
  match lineOf i with
  | some n => (s.line n).qualified
  | none => false

/-- A level source is active when its line's qualified level is its trigger's (R51). No other source is. -/
def State.lineActive (s : State) (i : SourceNo) : Bool :=
  match lineOf i with
  | none => false
  | some n =>
    match (s.source i).trigger with
    | .high => (s.line n).qualified
    | .low => !(s.line n).qualified
    | .rising | .falling | .both => false

/-! ## Ports of a source -/

/-- The responsible port: the borrower when one is present, otherwise the binder (R26). -/
def SourceRec.responsible (r : SourceRec) : Option Port :=
  match r.borrower with
  | some p => some p
  | none => r.binder

/-! ## Timers (R102) -/

/-- Start: no timer for a limit of 0, otherwise a timer that expires at part time plus the limit, modulo 2^32. It
replaces a timer that runs. -/
def State.startTimer (s : State) (i : SourceNo) (kind : TimerKind) (limit : Half) : State :=
  if limit = 0#16 then s.setTimer i none
  else s.setTimer i (some ⟨kind, s.partTime + limit.setWidth 32, false⟩)

/-- Stop: no timer, and no expiry delivered and not yet taken (R105). -/
def State.stopTimer (s : State) (i : SourceNo) : State := s.setTimer i none

/-! ## Incidents (R124, R125) -/

/-- A queue with a record written: appended where fewer than 8 are held, otherwise lost and the flag set. -/
def IncidentQueue.push (q : IncidentQueue) (r : Incident) : IncidentQueue :=
  if q.records.length < Config.queueCapacity then { q with records := q.records ++ [r] }
  else { q with overflow := true }

/-- Write an incident about `i` to the queue of its binder. A source of an incident has a binder (R124); without one
nothing is written (log 19). -/
def State.writeIncident (s : State) (kind : IncidentKind) (i : SourceNo) (port : Option Port) (detail : Byte)
    (time : Time) : State :=
  match (s.source i).binder with
  | some b => s.setQueue b ((s.queue b).push ⟨kind, i, port, detail, time⟩)
  | none => s

/-! ## Counts and events (R48, R49, R50) -/

/-- Raise the count by one up to 15, in a happening of part time `now`; the raise from 14 to 15 writes one
COUNT_SATURATED incident. -/
def State.raiseCount (s : State) (i : SourceNo) (now : Time) : State :=
  let r := s.source i
  if r.count < Config.maxCount then
    let raised := s.setSource i { r with count := r.count + 1 }
    if r.count + 1 = Config.maxCount then raised.writeIncident .countSaturated i none 0#8 now else raised
  else s

/-- Make the source PENDING with the given count and a WAIT timer from the wait limit in force (R103). -/
def State.makePending (s : State) (i : SourceNo) (count : Nat) : State :=
  let r := s.source i
  (s.setSource i { r with state := .pending, count := count }).startTimer i .wait r.waitLimit

/-- Make the source QUIET with count 0. -/
def State.makeQuiet (s : State) (i : SourceNo) : State :=
  s.setSource i { s.source i with state := .quiet, count := 0 }

/-- Take one event on an enabled source (R48): QUIET becomes PENDING with count 1 and a WAIT timer, any other state
counts it. -/
def State.takeEvent (s : State) (i : SourceNo) : State :=
  match (s.source i).state with
  | .quiet => s.makePending i 1
  | .pending | .escalated | .claimed _ => s.raiseCount i s.partTime

/-- Whether a qualified change of its line is one event on an enabled source (R47). -/
def SourceRec.takesEdge (r : SourceRec) (e : Edge) : Bool :=
  match r.trigger, e with
  | .rising, .rise => true
  | .rising, .fall => false
  | .falling, .rise => false
  | .falling, .fall => true
  | .both, _ => true
  | .high, .rise => r.state == .quiet
  | .high, .fall => false
  | .low, .rise => false
  | .low, .fall => r.state == .quiet

/-! ## Claim lists (R81 to R84) -/

/-- Whether the entry names the source. -/
def ClaimEntry.names (e : ClaimEntry) (i : SourceNo) : Bool := e.source == i

/-- Whether the entry is HELD. -/
def ClaimEntry.isHeld (e : ClaimEntry) : Bool := e.status == .held

/-- The entry of the port's list that names the source. -/
def State.entryOf (s : State) (p : Port) (i : SourceNo) : Option ClaimEntry := (s.claimList p).find? (·.names i)

/-- The list without the entry that names the source. -/
def State.removeEntry (s : State) (p : Port) (i : SourceNo) : State :=
  s.setClaimList p ((s.claimList p).filter fun e => !e.names i)

/-- The port's list without a RETRACTED entry that names the source (R85, R86, R87). -/
def State.listWithoutLost (s : State) (p : Port) (i : SourceNo) : List ClaimEntry :=
  (s.claimList p).filter fun e => !(e.names i && !e.isHeld)

/-- The RETRACTED entry of the port that names the source removed, every other entry kept (R92). -/
def State.dropLost (s : State) (p : Port) (i : SourceNo) : State := s.setClaimList p (s.listWithoutLost p i)

/-- How many HELD entries the port's list holds. -/
def State.heldCount (s : State) (p : Port) : Nat := (s.claimList p).countP (·.isHeld)

/-- How many RETRACTED entries the port's list holds. -/
def State.retractedCount (s : State) (p : Port) : Nat := (s.claimList p).countP fun e => !e.isHeld

/-- Whether any port's list holds a HELD entry (R160). -/
def State.anyHeld (s : State) : Bool := (List.finRange 4).any fun p => (s.claimList p).any (·.isHeld)

/-- Give a claim back as DEFER and a port clear do (R95, R98): its SERVICE timer stops; a disabled source goes QUIET and
its count is dropped (R6), an enabled one becomes PENDING with its count raised by one and a WAIT timer. -/
def State.returnClaim (s : State) (i : SourceNo) : State :=
  let t := s.stopTimer i
  let r := t.source i
  if r.enabled then
    let u := t.raiseCount i t.partTime
    u.makePending i (u.source i).count
  else t.makeQuiet i

end Sys2Proof.Machine
end

