-- ==== Sys2Proof/Machine/Ranking.lean ====
section
/-! DEFINITION. Levels, running levels, offer sets and tops, which are derived and never stored (04), and the Offer Unit's
following of a happening: top-changed flags and attention lines (R72, R76, R77). -/

namespace Sys2Proof.Machine

/-! ## Levels (R63, R65) -/

/-- The level of a source with a given priority. -/
def levelOf (i : SourceNo) (priority : Fin 256) : Nat :=
  if priority = 0 then (if isHighBand i then 0 else Config.unnumberedLowLevel) else priority.val

/-- The present level of a source. -/
def State.level (s : State) (i : SourceNo) : Nat := levelOf i (s.source i).priority

/-- The reported level of R65. -/
def reportedLevel (level : Nat) : Byte := if level = Config.unnumberedLowLevel then 255#8 else byteOf level

/-- The unnumbered mark of R65. -/
def unnumberedMark (level : Nat) : Bool := level == 0 || level == Config.unnumberedLowLevel

/-! ## The order of sources (R64) -/

/-- Whether the first source, at its level, ranks before the second: by level, then by default position. -/
def ranksBefore (levelA : Nat) (a : SourceNo) (levelB : Nat) (b : SourceNo) : Bool :=
  levelA < levelB || (levelA == levelB && defaultPosition a < defaultPosition b)

/-- Whether source `a` is more urgent than source `b`. -/
def State.moreUrgent (s : State) (a b : SourceNo) : Bool := ranksBefore (s.level a) a (s.level b) b

/-! ## Bounds (R68, R70) -/

/-- The running level: the smallest level at claim among the HELD entries of a list, 257 without one. -/
def runningLevelOf : List ClaimEntry → Nat
  | [] => Config.idleLevel
  | e :: rest => if e.isHeld then min e.level (runningLevelOf rest) else runningLevelOf rest

/-- The running level of a port. -/
def State.runningLevel (s : State) (p : Port) : Nat := runningLevelOf (s.claimList p)

/-- The admission bound: the smaller of the threshold and the running level. -/
def State.admissionBound (s : State) (p : Port) : Nat := min (s.offer p).threshold (s.runningLevel p)

/-! ## Offer sets and tops (R70, R73) -/

/-- Whether the record makes its source a candidate for the port's offer set: conditions 1 to 3 of R70. -/
def SourceRec.candidateFor (r : SourceRec) (p : Port) : Bool :=
  r.enabled &&
    match r.state with
    | .pending => r.responsible == some p
    | .escalated => r.responsible == some p || r.fallback == some p
    | .quiet | .claimed _ => false

/-- Whether the source is in the port's offer set (R70). -/
def State.offered (s : State) (p : Port) (i : SourceNo) : Bool :=
  (s.source i).candidateFor p && s.level i < s.admissionBound p

/-- The port's offer set, in ascending source number. -/
def State.offerSet (s : State) (p : Port) : List SourceNo := (List.finRange 96).filter fun i => s.offered p i

/-- The most urgent source of a list. -/
def State.mostUrgent (s : State) : List SourceNo → Option SourceNo
  | [] => none
  | i :: rest =>
    match s.mostUrgent rest with
    | none => some i
    | some j => if s.moreUrgent j i then some j else some i

/-- The port's top, absent for an empty offer set (R73). -/
def State.top (s : State) (p : Port) : Option SourceNo := s.mostUrgent (s.offerSet p)

/-! ## Following a happening (R72, R76, R77) -/

/-- The port's part: the flag is set where the top changed to one that is not the last-reported top, and the attention line is
asserted exactly while a top is present. -/
def OfferPort.follow (o : OfferPort) (before after : Option SourceNo) : OfferPort :=
  { o with
    changed := o.changed || (before != after && after != o.lastReported)
    attention := after.isSome }

/-- The Offer Unit follows a happening that took the part from `before` to `after`. -/
def State.follow (before after : State) : State :=
  { after with offers := Table.build fun p => (after.offer p).follow (before.top p) (after.top p) }

end Sys2Proof.Machine
end

