-- ==== Sys2Proof/Machine/Protocol.lean ====
section
/-! DEFINITION. How a Link Interface hands a command on and what becomes of its answer (R137 to R147): the power states that
pass a command, the command in hand and the one waiting, the repeat store and the transaction. `ownerTakes` and
`linkTakes` are the shared frame of every host command. -/

namespace Sys2Proof.Machine

/-! ## Power states and commands (R138) -/

/-- Whether a power state passes a command. -/
def PowerState.passes : PowerState → HostCode → Bool
  | .active, _ => true
  | .init, .status | .init, .repeatAnswer => true
  | .watch, .status | .watch, .wake | .watch, .repeatAnswer | .watch, .reset => true
  | .waking, .status | .waking, .wake | .waking, .repeatAnswer | .waking, .reset => true
  | .failed, .status | .failed, .repeatAnswer | .failed, .reset => true
  | .dormant, .wake => true
  | _, _ => false

/-- The result a power state gives a command it does not pass, none in DORMANT, which gives no answer. -/
def PowerState.refusal : PowerState → Option Result
  | .watch => some .asleep
  | .init | .active | .waking | .failed => some .notReady
  | .dormant => none

/-- Whether RESETn or the power-on hold keeps the part in reset (R154). -/
def State.inHold (s : State) : Bool := s.hold != .released

/-! ## What an owner answers -/

/-- A result and its payload. -/
structure Reply where
  result  : Result
  payload : List Byte
  deriving DecidableEq, Repr

/-- A refusal carries an empty payload (R151). -/
def refuse (r : Result) : Reply := ⟨r, []⟩

/-- An OK with a payload. -/
def okWith (payload : List Byte) : Reply := ⟨.ok, payload⟩

/-- The reply as the answer to a code. -/
def Reply.answer (r : Reply) (code : HostCode) : Answer := ⟨code.byte, r.result, r.payload⟩

/-! ## The command in hand (R139, R140, R141) -/

/-- Whether the command reaches its owner from this Link Interface: it is the command in hand, or the row stands for a
whole transaction of a deselected port with nothing in hand (log 4). While a port clear stands between its parts no
command of the port does (R147). -/
def Link.handsOn (l : Link) (c : Instr) : Bool :=
  l.clearing == .idle &&
    match l.inHand with
    | some h => h.row == some c
    | none => l.transaction == .deselected

/-- Whether the transaction of the command being taken is still open; a row that stands for a whole transaction brings
its own (log 4). -/
def Link.answerWanted (l : Link) : Bool :=
  match l.inHand with
  | some h => h.isOpen
  | none => true

/-- The answer to the command in hand is composed and sent where its transaction is still open (R140); the waiting
command becomes the command in hand (R139). -/
def Link.send (l : Link) (a : Option Answer) : Link :=
  { l with
    transaction :=
      if l.answerWanted && l.transaction == .processing then
        (if a.isSome then .answering else .draining)
      else l.transaction
    answerFrame := if l.answerWanted then a else l.answerFrame
    inHand := l.waiting
    waiting := none }

/-- Keep an owner's answer in the repeat store (R144). -/
def Link.keep (l : Link) (a : Answer) : Link := { l with repeatStore := some a }

/-- What the owner answers a CONFIGURE or WRITE_SETTING whose identifier no row has (R10, R168), after its power check
(R139). -/
def Link.refuseIdentifier (l : Link) (power : PowerState) (code : HostCode) : Link :=
  if power.passes code then
    let a := (refuse .badArgument).answer code
    (l.send (some a)).keep a
  else l.send (power.refusal.map fun r => (refuse r).answer code)

/-- A command in hand whose identifier no row has is taken as soon as it is in hand (log 6). -/
def Link.settle (l : Link) (power : PowerState) : Link :=
  match l.inHand with
  | some h => if h.row.isNone then l.refuseIdentifier power h.code else l
  | none => l

/-- The owner of the command in hand has composed its answer: it enters the repeat store where it is an owner's
(R144), goes out (R140), and the next command is handed on (R139). -/
def Link.finish (l : Link) (power : PowerState) (a : Option Answer) (kept : Bool) : Link :=
  let sent := l.send a
  let stored := match a with
    | some ans => if kept then sent.keep ans else sent
    | none => sent
  stored.settle power

/-- The same for the port's Link Interface in the part. -/
def State.answer (s : State) (p : Port) (a : Option Answer) (kept : Bool) : State :=
  s.setLink p ((s.link p).finish s.power a kept)

/-- Whether the command reaches its owner. In a hold no frame is received and no command answered (R154). -/
def State.handsOn (s : State) (p : Port) (c : Instr) : Bool := !s.inHold && (s.link p).handsOn c

/-! ## Taking a command -/

/-- A happening at the owner: the part as the command leaves it, and the answer. -/
abbrev Taking := State → State × Reply

/-- The refusal of a command that the power state no longer admits (R139): answered NOT_READY or ASLEEP, not kept in the
repeat store, no answer in DORMANT. -/
def State.refusePower (s : State) (p : Port) (code : HostCode) : State :=
  s.answer p (s.power.refusal.map fun r => (refuse r).answer code) false

/-- An owner block takes a command: its power check, then the happening, whose answer enters the repeat store
(R139, R143, R144). A row whose command was not handed on has no effect (log 3, log 4). -/
def State.ownerTakes (s : State) (p : Port) (code : HostCode) (c : Instr) (take : Taking) : State :=
  if s.handsOn p c then
    if s.power.passes code then
      let done := take s
      done.1.answer p (some (done.2.answer code)) true
    else s.refusePower p code
  else s

/-- The Link Interface answers a command itself: STATUS and REPEAT (R146, R148). The repeat store stays (R144). -/
def State.linkTakes (s : State) (p : Port) (code : HostCode) (c : Instr) (reply : State → Reply) : State :=
  if s.handsOn p c then
    if s.power.passes code then s.answer p (some ((reply s).answer code)) false
    else s.refusePower p code
  else s

/-- A source command after its range check: BAD_ARGUMENT for a source byte from 96 on (R9). -/
def onSource (source : Byte) (take : SourceNo → Taking) : Taking := fun s =>
  match sourceArg source with
  | some i => take i s
  | none => (s, refuse .badArgument)

/-! ## Cuts (R142, R145, R153) -/

/-- A Link Interface at a clearing: DESELECTED, or DRAINING where its chip-select is low; nothing in hand or
waiting, no port clear, an empty repeat store, no answer. -/
def Link.cut (l : Link) : Link where
  transaction := if l.transaction = .deselected then .deselected else .draining
  inHand := none
  waiting := none
  clearing := .idle
  repeatStore := none
  answerFrame := none

/-- The Link Interface of the port whose RESET, DORMANT or WAKE caused the clearing: cut, but for the OK answer in its
transaction where that is still open (R134, R142), with the given repeat store (R145). -/
def Link.cutIssuer (l : Link) (a : Answer) (store : Option Answer) : Link :=
  { l.cut with
    transaction := if l.answerWanted && l.transaction == .processing then .answering else l.cut.transaction
    answerFrame := if l.answerWanted then some a else none
    repeatStore := store }

end Sys2Proof.Machine
end

