-- ==== Sys2Proof/Machine/LineOps.lean ====
section
/-! DEFINITION. The Line Sampler's operations: which lines are watched and sampled, qualification spans, the freezing of lines
at WATCH entry and their release at WAKING entry (R44 to R46, R55, R59, R60). -/

namespace Sys2Proof.Machine

/-- Whether a line is watched in WATCH: its source is enabled and neither its group nor its segment is held (R55). -/
def State.watched (s : State) (n : LineNo) : Bool :=
  (s.source (sourceOf n)).enabled &&
    !s.settings.groupMask.getLsbD (s.source (sourceOf n)).group.val &&
    !s.settings.segmentMask.getLsbD (segmentOf (sourceOf n))

/-- Whether the sampler samples a line in the present power state (R46). -/
def State.sampled (s : State) (n : LineNo) : Bool :=
  match s.power with
  | .active | .waking => true
  | .watch => s.watched n
  | .init | .dormant | .failed => false

/-- The qualify time of a line: the qualify field of its source (R44). -/
def State.qualifyTime (s : State) (n : LineNo) : Nat := (s.source (sourceOf n)).qualify.val

/-- The level the line will have once every report made is taken; the level the sampler measures raw changes against
(R45, log 11). -/
def Line.aimed (l : Line) : Bool :=
  match l.reports.getLast? with
  | some e => e.level
  | none => l.qualified

/-- The raw level has held for the qualify time: the span ends and the change is reported (R45). -/
def Line.report (l : Line) : Line := { l with span := none, reports := l.reports ++ [Edge.toward l.raw] }

/-- A span begins at sampler time `now`; a qualify time of 0 makes the change a qualified change at once (R45). -/
def Line.begin (l : Line) (now qualify : Nat) : Line :=
  if qualify = 0 then l.report else { l with span := some now }

/-- The sampler sees the raw level (R45): a change away from the qualified level begins a span, a change back to it ends
the span without effect. -/
def Line.sample (l : Line) (level : Bool) (now qualify : Nat) : Line :=
  if l.raw = level then l
  else
    let seen := { l with raw := level }
    if level = l.aimed then { seen with span := none } else seen.begin now qualify

/-- Whether the line's span has reached the qualify time (R45). -/
def Line.spanReached (l : Line) (now qualify : Nat) : Bool :=
  match l.span with
  | some start => qualify ≤ now - start
  | none => false

/-- A span under a new qualify time (R14): where the raw level has already held that long, the qualified level changes at
once; reports made before it are then taken with it, and take no event, since the source is disabled (log 11). -/
def Line.requalify (l : Line) (now qualify : Nat) : Line :=
  if l.spanReached now qualify then { l with qualified := l.raw, span := none, reports := [] } else l

/-- An unwatched line at WATCH entry: frozen at its qualified level, its span and its untaken reports dropped (R59). -/
def Line.freeze (l : Line) : Line := { l with span := none, reports := [] }

/-- An unwatched line at WAKING entry: its pin is read, and a raw level other than the frozen level begins a span
(R60). -/
def Line.resume (l : Line) (now qualify : Nat) : Line :=
  let seen := { l with raw := l.pin, span := none }
  if l.pin = l.qualified then seen else seen.begin now qualify

/-- A line at ACTIVE entry from INIT: raw and qualified level are read off the pin, with no span and no report (R46). -/
def Line.read (l : Line) : Line where
  pin := l.pin
  raw := l.pin
  qualified := l.pin
  span := none
  reports := []

/-- A line at a clearing: raw and qualified level low, no span, no report (R46, R153). The pin is outside the part. -/
def Line.clear (l : Line) : Line := { Line.default with pin := l.pin }

/-- The line of a disabled source whose qualify field was `former` till now
(R14, R44): by CONFIGURE QUALIFY, or by UNBIND, which sets it to its default value (R30). An unchanged field changes
nothing. -/
def State.requalifyLine (s : State) (i : SourceNo) (former : Fin 16) : State :=
  match lineOf i with
  | some n =>
    if (s.source i).qualify = former then s
    else s.setLine n ((s.line n).requalify s.samplerTime (s.source i).qualify.val)
  | none => s

/-- Every line changed by its own rule. -/
def State.mapLines (s : State) (f : LineNo → Line → Line) : State :=
  { s with lines := Table.build fun n => f n (s.line n) }

/-- The lines at WATCH entry (R59). -/
def State.freezeLines (s : State) : State :=
  s.mapLines fun n l => if s.watched n then l else l.freeze

/-- The lines at WAKING entry (R60). -/
def State.resumeLines (s : State) : State :=
  s.mapLines fun n l => if s.watched n then l else l.resume s.samplerTime (s.qualifyTime n)

/-- WAKING begins (R162): part time runs on from the frozen value, every line is sampled. -/
def State.startWaking (s : State) : State :=
  { s.resumeLines with power := .waking, wakingSince := s.partTime }

end Sys2Proof.Machine
end

