-- ==== Sys2Proof/Machine/LinkCommands.lean ====
section
/-! DEFINITION. The meanings of the rows that the Link Interfaces take: STATUS, REPEAT, the chip-select edges, the completion
of a command frame and the end of an answer frame (08). -/

namespace Sys2Proof.Machine

/-- The outcome of every meaning. -/
abbrev Outcome := Host.Outcome State Fault Refusal

/-- STATUS's ten bytes: table A (R148). -/
def statusPayload (s : State) (p : Port) : List Byte :=
  [byteOf p.val, s.power.byte, byteOf (s.heldCount p), byteOf (s.retractedCount p),
   byteOf (s.queue p).records.length,
   statusFlags (s.queue p).overflow (s.offer p).changed (s.offer p).attention] ++ timeBytes s.partTime

/-- STATUS (R148): answered by the Link Interface; it changes no state of any block. -/
def execStatus (p : Port) (s : State) : Outcome :=
  .next (s.linkTakes p .status (.status p) fun s => okWith (statusPayload s p))

/-- REPEAT's reply (R146): the stored code, result and payload, or NO_ANSWER. -/
def repeatReply (store : Option Answer) : Reply :=
  match store with
  | some a => okWith (a.code :: a.result.byte :: a.payload)
  | none => refuse .noAnswer

/-- REPEAT (R146): answered from the repeat store, which stays as it is. -/
def execRepeatAnswer (p : Port) (s : State) : Outcome :=
  .next (s.linkTakes p .repeatAnswer (.repeatAnswer p) fun s => repeatReply (s.link p).repeatStore)

/-- The Link Interface at the fall of its chip-select: DESELECTED becomes RECEIVING (R134). In a hold the frame will not
be received and the transaction drains (R133, R142). A command still held belongs to an earlier transaction. -/
def Link.select (l : Link) (inHold : Bool) : Link :=
  if l.transaction = .deselected then
    { l with
      transaction := if inHold then .draining else .receiving
      inHand := l.inHand.map fun h => { h with isOpen := false }
      waiting := l.waiting.map fun h => { h with isOpen := false }
      answerFrame := none }
  else l

/-- CHIP_SELECT_FALL (R134). -/
def execChipSelectFall (p : Port) (s : State) : Outcome := .next (s.setLink p ((s.link p).select s.inHold))

/-- The Link Interface at the rise of its chip-select: the transaction ends in every state; a command whose frame is
complete stays in hand or waiting, and its answer is not sent (R141). -/
def Link.deselect (l : Link) : Link :=
  if l.transaction = .deselected then l
  else
    { l with
      transaction := .deselected
      inHand := l.inHand.map fun h => { h with isOpen := false }
      waiting := l.waiting.map fun h => { h with isOpen := false } }

/-- CHIP_SELECT_RISE (R141). -/
def execChipSelectRise (p : Port) (s : State) : Outcome := .next (s.setLink p (s.link p).deselect)

/-- ANSWER_FRAME_SENT (R140): after the answer's check byte the port drains. -/
def execAnswerFrameSent (p : Port) (s : State) : Outcome :=
  .next (if (s.link p).transaction = .answering then s.setLink p { s.link p with transaction := .draining } else s)

/-- A frame discarded without effect and without answer: the transaction drains (R137, R139). -/
def Link.discard (l : Link) : Link := { l with transaction := .draining, answerFrame := none }

/-- An answer the Link Interface composes itself at frame completion: empty payload, not kept (R137, R144). -/
def Link.refuseFrame (l : Link) (code : Byte) (r : Result) : Link :=
  { l with transaction := .answering, answerFrame := some ⟨code, r, []⟩ }

/-- The Link Interface refuses by power state (R138); DORMANT gives no answer. -/
def Link.refuseByPower (l : Link) (code : Byte) (power : PowerState) : Link :=
  match power.refusal with
  | some r => l.refuseFrame code r
  | none => l.discard

/-- A frame handed on (R139): it becomes the command in hand, or waits, or is discarded behind a waiting one. -/
def Link.handOver (l : Link) (power : PowerState) (code : HostCode) (row : Option Instr) : Link :=
  match l.inHand, l.waiting with
  | none, _ => { l with transaction := .processing, inHand := some ⟨code, row, true⟩ }.settle power
  | some _, none => { l with transaction := .processing, waiting := some ⟨code, row, true⟩ }
  | some _, some _ => l.discard

/-- What becomes of a complete command frame of port `p`: the tests of R137, the first that applies deciding. -/
def Link.judgeFrame (l : Link) (p : Port) (power : PowerState) (f : Frame) : Link :=
  if power = .dormant then
    if f.checkRight && f.code == HostCode.wake.byte && f.length == 0#8 then l.handOver power .wake (some (.wake p))
    else l.discard
  else if !f.checkRight then l.refuseFrame f.code .badCheck
  else
    match HostCode.ofByte f.code with
    | none => l.refuseFrame f.code .unknown
    | some code =>
      match decodeCommand p code f.args with
      | .wrongLength => l.refuseFrame f.code .badArgument
      | .unknownIdentifier =>
        if power.passes code then l.handOver power code none else l.refuseByPower f.code power
      | .row c =>
        if power.passes code then l.handOver power code (some c) else l.refuseByPower f.code power

/-- FRAME_COMPLETE (R135, R137 to R139). Bytes that are no whole frame yet leave the port RECEIVING, and bytes outside
RECEIVING are ignored (R134). -/
def execFrameComplete (p : Port) (bytes : List Byte) (s : State) : Outcome :=
  .next
    (if (s.link p).transaction = .receiving then
      match parseFrame bytes with
      | some f => s.setLink p ((s.link p).judgeFrame p s.power f)
      | none => s
    else s)

/-! ## What a port drives on SDO (R133, R134) -/

/-- SDO: high impedance, fill, or an answer frame. -/
inductive Drive where
  | nothing
  | fill
  | answer (bytes : List Byte)
  deriving DecidableEq, Repr

/-- What the port drives; nothing while RESETn or the power-on hold keeps the part in reset (R154). -/
def State.sdo (s : State) (p : Port) : Drive :=
  if s.inHold then .nothing
  else
    match (s.link p).transaction with
    | .deselected => .nothing
    | .receiving | .processing | .draining => .fill
    | .answering =>
      match (s.link p).answerFrame with
      | some a => .answer a.wire
      | none => .fill

end Sys2Proof.Machine
end

