-- ==== Sys2Proof/Machine/OfferCommands.lean ====
section
/-! DEFINITION. The meanings of the Offer Unit's commands: TOP, SET_THRESHOLD and its part of a port clear (04). -/

namespace Sys2Proof.Machine

/-- TOP's four bytes: table B (R74). -/
def topPayload (s : State) : Option SourceNo → List Byte
  | some i =>
    [offerFlags true (unnumberedMark (s.level i)) ((s.source i).state == .escalated), byteOf i.val,
     reportedLevel (s.level i), byteOf (s.source i).count]
  | none => [offerFlags false false false, 0#8, 0#8, 0#8]

/-- TOP taken (R74): the top is reported, recorded as last-reported, and the top-changed flag is cleared. -/
def takeTop (p : Port) : Taking := fun s =>
  (s.setOffer p { s.offer p with lastReported := s.top p, changed := false }, okWith (topPayload s (s.top p)))

/-- TOP (R74). -/
def execTop (p : Port) (s : State) : Outcome := .next (s.ownerTakes p .top (.top p) (takeTop p))

/-- SET_THRESHOLD taken (R67): 0 to 257 is set at once and the sender's offers follow, more is BAD_ARGUMENT. -/
def takeSetThreshold (p : Port) (threshold : Half) : Taking := fun s =>
  if threshold.toNat ≤ Config.openThreshold then
    (State.follow s (s.setOffer p { s.offer p with threshold := threshold.toNat }), okWith (halfBytes threshold))
  else (s, refuse .badArgument)

/-- SET_THRESHOLD (R67). -/
def execSetThreshold (p : Port) (threshold : Half) (s : State) : Outcome :=
  .next (s.ownerTakes p .setThreshold (.setThreshold p threshold) (takeSetThreshold p threshold))

/-- The Offer Unit's part of a port clear (R80): threshold 257, last-reported top absent, flag clear; the port's offer
set follows the threshold and its attention line follows the set. The flag ends clear (log 13). -/
def State.clearOffers (s : State) (p : Port) : State :=
  let t := s.setOffer p OfferPort.default
  t.setOffer p { OfferPort.default with attention := (t.top p).isSome }

/-- PORT_CLEAR_OFFER_UNIT_PART (R80, R147): taken where the port clear of `p` stands before this part. -/
def execPortClearOfferUnitPart (p : Port) (s : State) : Outcome :=
  .next
    (if !s.inHold && (s.link p).clearing = .offerUnitNext then
      (s.clearOffers p).setLink p { s.link p with clearing := .sourceTableNext }
    else s)

end Sys2Proof.Machine
end

