-- ==== Sys2Proof/Machine/ClaimCommands.lean ====
section
/-! DEFINITION. The meanings of the claim commands and of the Source Table's part of a port clear (05; 02 section 2.5). -/

namespace Sys2Proof.Machine

/-! ## Taking a claim -/

/-- The claim answer: table C, from the part as the claim found it (R88). -/
def claimPayload (s : State) (i : SourceNo) : List Byte :=
  [byteOf i.val, reportedLevel (s.level i),
   offerFlags false (unnumberedMark (s.level i)) ((s.source i).state == .escalated),
   byteOf (s.source i).count] ++ timeBytes s.partTime

/-- A claim taken by port `p` on source `i` (R87): a RETRACTED entry of `p` for it goes, a HELD entry is appended, the
source is CLAIMED with count 0, its WAIT timer stops and a SERVICE timer starts; the offers follow. -/
def State.takeClaim (s : State) (p : Port) (i : SourceNo) : State :=
  let r := s.source i
  let listed := s.setClaimList p (s.listWithoutLost p i ++ [⟨i, s.level i, .held, s.partTime⟩])
  let recorded := listed.setSource i { r with state := .claimed p, count := 0 }
  State.follow s (recorded.startTimer i .service r.serviceLimit)

/-- Whether the port's list is full for a claim on the source: 8 entries, a RETRACTED one for it left out (R85, R86). -/
def State.fullFor (s : State) (p : Port) (i : SourceNo) : Bool :=
  Config.claimCapacity ≤ (s.listWithoutLost p i).length

/-- CLAIM_TOP taken: the checks of R85 in order, then R87 on the top. -/
def takeClaimTop (p : Port) : Taking := fun s =>
  match s.top p with
  | some i => if s.fullFor p i then (s, refuse .full) else (s.takeClaim p i, okWith (claimPayload s i))
  | none =>
    if Config.claimCapacity ≤ (s.claimList p).length then (s, refuse .full) else (s, refuse .nothingOffered)

/-- CLAIM_TOP (R85). -/
def execClaimTop (p : Port) (s : State) : Outcome :=
  .next (s.ownerTakes p .claimTop (.claimTop p) (takeClaimTop p))

/-- CLAIM taken: the checks of R86 after the range check, in order, then R87. -/
def takeClaimOf (p : Port) (i : SourceNo) : Taking := fun s =>
  if s.fullFor p i then (s, refuse .full)
  else if (s.source i).state.claimant.isSome then (s, refuse .taken)
  else if s.offered p i then (s.takeClaim p i, okWith (claimPayload s i))
  else (s, refuse .notOffered)

/-- CLAIM (R86). -/
def execClaim (p : Port) (source : Byte) (s : State) : Outcome :=
  .next (s.ownerTakes p .claim (.claim p source) (onSource source (takeClaimOf p)))

/-! ## Ending a claim -/

/-- The completion answer: source, state, count (R91). -/
def countPayload (s : State) (i : SourceNo) : List Byte :=
  [byteOf i.val, (s.source i).state.byte, byteOf (s.source i).count]

/-- COMPLETE of a HELD entry (R91, R52): the entry goes, the SERVICE timer stops, and the source re-pends on its count or
on its active line, or goes QUIET. -/
def State.completeClaim (s : State) (p : Port) (i : SourceNo) : State :=
  let ended := (s.removeEntry p i).stopTimer i
  let r := ended.source i
  State.follow s
    (if r.enabled then
      if 0 < r.count then ended.makePending i r.count
      else if ended.lineActive i then ended.makePending i 1
      else ended.makeQuiet i
    else ended.makeQuiet i)

/-- The TOO_LATE answer: the removed entry's source, level at claim and claimed at time (R92). -/
def lostPayload (e : ClaimEntry) : List Byte :=
  [byteOf e.source.val, reportedLevel e.level, offerFlags false (unnumberedMark e.level) false] ++
    timeBytes e.claimedAt

/-- COMPLETE taken: R91 for a HELD entry, R92 for a RETRACTED one and for none. -/
def takeComplete (p : Port) (i : SourceNo) : Taking := fun s =>
  match s.entryOf p i with
  | some e =>
    if e.isHeld then (s.completeClaim p i, okWith (countPayload (s.completeClaim p i) i))
    else (s.dropLost p i, ⟨.tooLate, lostPayload e⟩)
  | none => (s, refuse .notClaimed)

/-- COMPLETE (R91, R92). -/
def execComplete (p : Port) (source : Byte) (s : State) : Outcome :=
  .next (s.ownerTakes p .complete (.complete p source) (onSource source (takeComplete p)))

/-- DEFER of a HELD entry (R95). -/
def State.deferClaim (s : State) (p : Port) (i : SourceNo) : State :=
  State.follow s ((s.removeEntry p i).returnClaim i)

/-- DEFER taken (R95): NOT_CLAIMED without a HELD entry. -/
def takeDefer (p : Port) (i : SourceNo) : Taking := fun s =>
  match s.entryOf p i with
  | some e =>
    if e.isHeld then (s.deferClaim p i, okWith (countPayload (s.deferClaim p i) i))
    else (s, refuse .notClaimed)
  | none => (s, refuse .notClaimed)

/-- DEFER (R95). -/
def execDefer (p : Port) (source : Byte) (s : State) : Outcome :=
  .next (s.ownerTakes p .defer (.defer p source) (onSource source (takeDefer p)))

/-! ## LIST_CLAIMS -/

/-- One entry of table D. -/
def entryPayload (e : ClaimEntry) : List Byte :=
  [byteOf e.source.val, reportedLevel e.level, entryFlags (unnumberedMark e.level) (!e.isHeld)] ++
    timeBytes e.claimedAt

/-- LIST_CLAIMS's payload: table D (R97). -/
def listPayload (s : State) (p : Port) : List Byte :=
  [byteOf (s.claimList p).length, byteOf (s.heldCount p), byteOf (s.retractedCount p)] ++
    (s.claimList p).flatMap entryPayload

/-- LIST_CLAIMS (R97): it changes no state but the repeat store. -/
def execListClaims (p : Port) (s : State) : Outcome :=
  .next (s.ownerTakes p .listClaims (.listClaims p) fun s => (s, okWith (listPayload s p)))

/-! ## The Source Table's part of a port clear -/

/-- One entry of the cleared port's list (R98): a HELD one writes its RELEASED incident and gives its claim back. -/
def State.releaseEntry (p : Port) (s : State) (e : ClaimEntry) : State :=
  if e.isHeld then (s.writeIncident .released e.source (some p) 0#8 s.partTime).returnClaim e.source else s

/-- The first step: the entries in claim order, oldest first, then the list is emptied (R98). -/
def State.releaseClaims (s : State) (p : Port) : State :=
  ((s.claimList p).foldl (State.releaseEntry p) s).setClaimList p []

/-- One source of the second step (R40): a loan to the cleared port ends with a LOAN_ENDED incident of cause CLEAR. -/
def State.endLoan (p : Port) (s : State) (i : SourceNo) : State :=
  if (s.source i).borrower = some p then
    (s.setSource i { s.source i with borrower := none }).writeIncident .loanEnded i (some p) 2#8 s.partTime
  else s

/-- The second step: the loans of the port, in ascending source number (R40). -/
def State.endLoans (s : State) (p : Port) : State := (List.finRange 96).foldl (State.endLoan p) s

/-- How many sources the port borrows. -/
def State.loanCount (s : State) (p : Port) : Nat :=
  (List.finRange 96).countP fun i => (s.source i).borrower == some p

/-- Both steps, followed as a whole (R72, R98). -/
def State.clearTable (s : State) (p : Port) : State := State.follow s ((s.releaseClaims p).endLoans p)

/-- PORT_CLEAR's answer: HELD claims returned, RETRACTED entries removed, loans ended (R99). -/
def clearPayload (s : State) (p : Port) : List Byte :=
  [byteOf (s.heldCount p), byteOf (s.retractedCount p), byteOf (s.loanCount p)]

/-- PORT_CLEAR_SOURCE_TABLE_PART (R98, R40, R99, R147): taken where the port clear of `p` stands before this part; the
Source Table composes the answer, which enters the repeat store. -/
def execPortClearSourceTablePart (p : Port) (s : State) : Outcome :=
  .next
    (if !s.inHold && (s.link p).clearing = .sourceTableNext then
      ((s.clearTable p).setLink p { s.link p with clearing := .idle }).answer p
        (some ((okWith (clearPayload s p)).answer .portClear)) true
    else s)

end Sys2Proof.Machine
end

