-- ==== Sys2Proof/Machine/RecordCommands.lean ====
section
/-! DEFINITION. The meanings of CONFIGURE, ENABLE, DISABLE and READ_SOURCE (01 section 1.5). -/

namespace Sys2Proof.Machine

/-! ## CONFIGURE -/

/-- CONFIGURE's OK payload: source, field identifier, value as written (R151). -/
def configurePayload (i : SourceNo) (field : Byte) (value : Half) : List Byte := byteOf i.val :: field :: halfBytes value

/-- CONFIGURE taken after the source range check: the value and kind (R10), the binder's permission (R9), the state check
(R11), then the write. `value?` is the value where it is accepted for the kind of the source. -/
def takeConfigure {α : Type} (p : Port) (field : Byte) (value : Half) (value? : SourceNo → Option α)
    (busy : SourceRec → Bool) (write : State → SourceNo → α → State) (i : SourceNo) : Taking := fun s =>
  match value? i with
  | none => (s, refuse .badArgument)
  | some v =>
    if (s.source i).binder = some p then
      if busy (s.source i) then (s, refuse .busy) else (write s i v, okWith (configurePayload i field value))
    else (s, refuse .denied)

/-- The fields taken in every state (R11). -/
def neverBusy : SourceRec → Bool := fun _ => false

/-- A value for a field that acts on wired sources alone (R3, R10). -/
def wiredOnly {α : Type} (v : Option α) (i : SourceNo) : Option α := if isPosted i then none else v

/-- A value for a field that acts on posted sources alone (R3, R10). -/
def postedOnly {α : Type} (v : Option α) (i : SourceNo) : Option α := if isPosted i then v else none

/-- A new PRIORITY, followed at once (R12). -/
def State.writePriority (s : State) (i : SourceNo) (v : Fin 256) : State :=
  State.follow s (s.setSource i { s.source i with priority := v })

/-- CONFIGURE PRIORITY (R12). -/
def execConfigurePriority (p : Port) (source : Byte) (value : Half) (s : State) : Outcome :=
  .next (s.ownerTakes p .configure (.configurePriority p source value)
    (onSource source (takeConfigure p 1#8 value (fun _ => boundedArg 256 value) neverBusy State.writePriority)))

/-- A new GROUP (R13). -/
def State.writeGroup (s : State) (i : SourceNo) (v : Fin 8) : State :=
  s.setSource i { s.source i with group := v }

/-- CONFIGURE GROUP (R13). -/
def execConfigureGroup (p : Port) (source : Byte) (value : Half) (s : State) : Outcome :=
  .next (s.ownerTakes p .configure (.configureGroup p source value)
    (onSource source (takeConfigure p 2#8 value (fun _ => boundedArg 8 value) neverBusy State.writeGroup)))

/-- A new TRIGGER (R14). -/
def State.writeTrigger (s : State) (i : SourceNo) (v : Trigger) : State :=
  s.setSource i { s.source i with trigger := v }

/-- CONFIGURE TRIGGER (R14): BUSY while the source is enabled or CLAIMED (R11). -/
def execConfigureTrigger (p : Port) (source : Byte) (value : Half) (s : State) : Outcome :=
  .next (s.ownerTakes p .configure (.configureTrigger p source value)
    (onSource source (takeConfigure p 3#8 value (wiredOnly (triggerArg value))
      (fun r => r.enabled || r.state.claimant.isSome) State.writeTrigger)))

/-- A new QUALIFY (R14). An equal value changes nothing (R11). -/
def State.writeQualify (s : State) (i : SourceNo) (v : Fin 16) : State :=
  (s.setSource i { s.source i with qualify := v }).requalifyLine i (s.source i).qualify

/-- CONFIGURE QUALIFY (R14): BUSY while the source is enabled (R11). -/
def execConfigureQualify (p : Port) (source : Byte) (value : Half) (s : State) : Outcome :=
  .next (s.ownerTakes p .configure (.configureQualify p source value)
    (onSource source (takeConfigure p 4#8 value (wiredOnly (boundedArg 16 value)) (·.enabled) State.writeQualify)))

/-- A new WAIT_LIMIT (R15). -/
def State.writeWaitLimit (s : State) (i : SourceNo) (v : Half) : State :=
  s.setSource i { s.source i with waitLimit := v }

/-- CONFIGURE WAIT_LIMIT (R15): a timer that runs keeps its expiry time. -/
def execConfigureWaitLimit (p : Port) (source : Byte) (value : Half) (s : State) : Outcome :=
  .next (s.ownerTakes p .configure (.configureWaitLimit p source value)
    (onSource source (takeConfigure p 5#8 value (fun _ => some value) neverBusy State.writeWaitLimit)))

/-- A new SERVICE_LIMIT (R15). -/
def State.writeServiceLimit (s : State) (i : SourceNo) (v : Half) : State :=
  s.setSource i { s.source i with serviceLimit := v }

/-- CONFIGURE SERVICE_LIMIT (R15): a timer that runs keeps its expiry time. -/
def execConfigureServiceLimit (p : Port) (source : Byte) (value : Half) (s : State) : Outcome :=
  .next (s.ownerTakes p .configure (.configureServiceLimit p source value)
    (onSource source (takeConfigure p 6#8 value (fun _ => some value) neverBusy State.writeServiceLimit)))

/-- A new FALLBACK, followed at once (R16). -/
def State.writeFallback (s : State) (i : SourceNo) (v : Option Port) : State :=
  State.follow s (s.setSource i { s.source i with fallback := v })

/-- CONFIGURE FALLBACK (R16). -/
def execConfigureFallback (p : Port) (source : Byte) (value : Half) (s : State) : Outcome :=
  .next (s.ownerTakes p .configure (.configureFallback p source value)
    (onSource source (takeConfigure p 7#8 value (fun _ => fallbackArg value) neverBusy State.writeFallback)))

/-- A new POSTERS set (R16). -/
def State.writePosters (s : State) (i : SourceNo) (v : PortSet) : State :=
  s.setSource i { s.source i with posters := v }

/-- CONFIGURE POSTERS (R16). -/
def execConfigurePosters (p : Port) (source : Byte) (value : Half) (s : State) : Outcome :=
  .next (s.ownerTakes p .configure (.configurePosters p source value)
    (onSource source (takeConfigure p 8#8 value (postedOnly (portSetArg value)) neverBusy State.writePosters)))

/-! ## ENABLE and DISABLE -/

/-- ENABLE's and DISABLE's OK payload: source, enabled, state, count (R151). -/
def enabledPayload (s : State) (i : SourceNo) : List Byte :=
  [byteOf i.val, (if (s.source i).enabled then 1#8 else 0#8), (s.source i).state.byte, byteOf (s.source i).count]

/-- ENABLE's effect (R17, R18): a source disabled till now becomes enabled, and one that is QUIET with an active line
takes one event. -/
def State.enableSource (s : State) (i : SourceNo) : State :=
  let r := s.source i
  if r.enabled then s
  else
    let t := s.setSource i { r with enabled := true }
    State.follow s (if r.state = .quiet ∧ t.lineActive i then t.takeEvent i else t)

/-- ENABLE taken (R17). -/
def takeEnable (p : Port) (i : SourceNo) : Taking := fun s =>
  if (s.source i).binder = some p then (s.enableSource i, okWith (enabledPayload (s.enableSource i) i))
  else (s, refuse .denied)

/-- ENABLE (R17). -/
def execEnable (p : Port) (source : Byte) (s : State) : Outcome :=
  .next (s.ownerTakes p .enable (.enable p source) (onSource source (takeEnable p)))

/-- A pending event withdrawn (R21): disabled, QUIET, count 0, the WAIT timer stopped, one WITHDRAWN incident with the
count dropped. -/
def State.withdraw (s : State) (i : SourceNo) : State :=
  let r := s.source i
  let t := (s.setSource i { r with enabled := false, state := .quiet, count := 0 }).stopTimer i
  State.follow s (t.writeIncident .withdrawn i none (byteOf r.count) t.partTime)

/-- DISABLE's effect by the state of the source (R20, R21, R22). -/
def State.disableSource (s : State) (i : SourceNo) : State :=
  let r := s.source i
  if r.enabled then
    match r.state with
    | .quiet => s.setSource i { r with enabled := false, count := 0 }
    | .pending | .escalated => s.withdraw i
    | .claimed _ => s.setSource i { r with enabled := false }
  else s

/-- DISABLE taken (R20). -/
def takeDisable (p : Port) (i : SourceNo) : Taking := fun s =>
  if (s.source i).binder = some p then (s.disableSource i, okWith (enabledPayload (s.disableSource i) i))
  else (s, refuse .denied)

/-- DISABLE (R20). -/
def execDisable (p : Port) (source : Byte) (s : State) : Outcome :=
  .next (s.ownerTakes p .disable (.disable p source) (onSource source (takeDisable p)))

/-! ## READ_SOURCE -/

/-- READ_SOURCE's 24 bytes: table E (R24). -/
def sourcePayload (s : State) (i : SourceNo) : List Byte :=
  let r := s.source i
  [byteOf i.val, sourceFlags (isPosted i) (isHighBand i) r.enabled (s.qualifiedLevel i),
   byteOf (defaultPosition i), byteOf (segmentOf i), portByte r.binder, portByte r.borrower, portByte r.fallback,
   r.posters.setWidth 8, r.trigger.byte, byteOf r.qualify.val, byteOf r.priority.val, byteOf r.group.val] ++
    halfBytes r.waitLimit ++ halfBytes r.serviceLimit ++
    [r.state.byte, byteOf r.count, portByte r.state.claimant, timerKindByte (s.timer i)] ++
    timeBytes (match s.timer i with | some t => t.expiry | none => 0#32)

/-- READ_SOURCE (R24): it changes no state but the repeat store. -/
def execReadSource (p : Port) (source : Byte) (s : State) : Outcome :=
  .next (s.ownerTakes p .readSource (.readSource p source)
    (onSource source fun i s => (s, okWith (sourcePayload s i))))

end Sys2Proof.Machine
end

