-- ==== Sys2Proof/Machine/BindingCommands.lean ====
section
/-! DEFINITION. The meanings of BIND, UNBIND, LEND, RECALL and RETURN (02). -/

namespace Sys2Proof.Machine

/-- The binding answer: source, binder, borrower, state, claimant, as the command left them (R28). -/
def bindingPayload (s : State) (i : SourceNo) : List Byte :=
  [byteOf i.val, portByte (s.source i).binder, portByte (s.source i).borrower, (s.source i).state.byte,
   portByte (s.source i).state.claimant]

/-- The part after a binding command that passed its checks, and its binding answer. -/
def boundAnswer (s : State) (i : SourceNo) : State × Reply := (s, okWith (bindingPayload s i))

/-- An unbound source bound by port `p` (R29): for a posted source posters becomes {p}; every other field keeps its
value. -/
def State.bindSource (s : State) (p : Port) (i : SourceNo) : State :=
  let r := s.source i
  s.setSource i { r with binder := some p, posters := if isPosted i then PortSet.only p else r.posters }

/-- BIND taken (R29). -/
def takeBind (p : Port) (i : SourceNo) : Taking := fun s =>
  match (s.source i).binder with
  | none => boundAnswer (s.bindSource p i) i
  | some b => if b = p then boundAnswer s i else (s, refuse .inUse)

/-- BIND (R29). -/
def execBind (p : Port) (source : Byte) (s : State) : Outcome :=
  .next (s.ownerTakes p .bind (.bind p source) (onSource source (takeBind p)))

/-- The record back at its default values and its timer stopped, followed at once (R30, R5); the qualify field's return to
0 acts on a span in progress as any change of it does (R44, R14). -/
def State.unbindSource (s : State) (i : SourceNo) : State :=
  State.follow s (((s.setSource i SourceRec.default).stopTimer i).requalifyLine i (s.source i).qualify)

/-- UNBIND taken (R30): BUSY while the source is CLAIMED. -/
def takeUnbind (p : Port) (i : SourceNo) : Taking := fun s =>
  if (s.source i).binder = some p then
    if (s.source i).state.claimant.isSome then (s, refuse .busy) else boundAnswer (s.unbindSource i) i
  else (s, refuse .denied)

/-- UNBIND (R30). -/
def execUnbind (p : Port) (source : Byte) (s : State) : Outcome :=
  .next (s.ownerTakes p .unbind (.unbind p source) (onSource source (takeUnbind p)))

/-- The borrower set, followed at once on both ports (R33, R34, R36). -/
def State.setBorrower (s : State) (i : SourceNo) (q : Option Port) : State :=
  State.follow s (s.setSource i { s.source i with borrower := q })

/-- LEND taken after the range checks: permission, then `q` equal to the binder, then a borrower present (R28). -/
def takeLend (p q : Port) (i : SourceNo) : Taking := fun s =>
  if (s.source i).binder = some p then
    if q = p then (s, refuse .badArgument)
    else if (s.source i).borrower.isSome then (s, refuse .lent)
    else boundAnswer (s.setBorrower i (some q)) i
  else (s, refuse .denied)

/-- LEND (R33): a port byte from 4 on is BAD_ARGUMENT, as is a source byte from 96 on (R28). -/
def execLend (p : Port) (source borrower : Byte) (s : State) : Outcome :=
  .next (s.ownerTakes p .lend (.lend p source borrower)
    (onSource source fun i s =>
      match portArg borrower with
      | some q => takeLend p q i s
      | none => (s, refuse .badArgument)))

/-- RECALL taken (R36). -/
def takeRecall (p : Port) (i : SourceNo) : Taking := fun s =>
  if (s.source i).binder = some p then
    if (s.source i).borrower.isSome then boundAnswer (s.setBorrower i none) i else (s, refuse .notLent)
  else (s, refuse .denied)

/-- RECALL (R36). -/
def execRecall (p : Port) (source : Byte) (s : State) : Outcome :=
  .next (s.ownerTakes p .recallLoan (.recallLoan p source) (onSource source (takeRecall p)))

/-- A loan returned (R37): the borrower goes, and the binder gets a LOAN_ENDED incident of cause RETURN. -/
def State.returnSource (s : State) (p : Port) (i : SourceNo) : State :=
  (s.setBorrower i none).writeIncident .loanEnded i (some p) 1#8 s.partTime

/-- RETURN taken: from the borrower alone (R37). -/
def takeReturn (p : Port) (i : SourceNo) : Taking := fun s =>
  if (s.source i).borrower = some p then boundAnswer (s.returnSource p i) i else (s, refuse .denied)

/-- RETURN (R37). -/
def execReturnLoan (p : Port) (source : Byte) (s : State) : Outcome :=
  .next (s.ownerTakes p .returnLoan (.returnLoan p source) (onSource source (takeReturn p)))

end Sys2Proof.Machine
end

