-- ==== Sys2Proof/Machine/Intake.lean ====
section
/-! DEFINITION. The meanings of the intake rows: POST and the happenings of the event lines (03). -/

namespace Sys2Proof.Machine

/-- POST taken: the checks of R56 after the range check, in order, then one event; the offers follow. -/
def takePost (p : Port) (i : SourceNo) : Taking := fun s =>
  if isPosted i then
    if (s.source i).posters.has p then
      if (s.source i).enabled then
        let t := State.follow s (s.takeEvent i)
        (t, okWith (countPayload t i))
      else (s, refuse .disabled)
    else (s, refuse .denied)
  else (s, refuse .badArgument)

/-- POST (R56). -/
def execPost (p : Port) (source : Byte) (s : State) : Outcome :=
  .next (s.ownerTakes p .post (.post p source) (onSource source (takePost p)))

/-- LINE_RAW_CHANGE (R45): the pin moves; a line that is sampled in the present power state is seen to change (R46),
another is not (R59). -/
def execLineRawChange (n : LineNo) (high : Bool) (s : State) : Outcome :=
  let moved := { s.line n with pin := high }
  .next (s.setLine n (if s.sampled n then moved.sample high s.samplerTime (s.qualifyTime n) else moved))

/-- QUALIFY_TIME_REACHED (R45): the span of a sampled line that has held its raw level for the qualify time ends, and
the qualified change is reported. Without such a span nothing happens (log 3). -/
def execQualifyTimeReached (n : LineNo) (s : State) : Outcome :=
  .next
    (if s.sampled n && (s.line n).spanReached s.samplerTime (s.qualifyTime n) then s.setLine n (s.line n).report
    else s)

/-- In WATCH, an event taken on a watched source makes a wake report (R61). -/
def State.reportWake (s : State) : State :=
  if s.power = .watch then { s with wakeReports := s.wakeReports + 1 } else s

/-- The Source Table takes a qualified change of a line: the new level holds from now on, and an enabled source may take
one event (R45, R47, R48, R61); the offers follow. -/
def State.takeChange (s : State) (n : LineNo) (e : Edge) (rest : List Edge) : State :=
  let t := s.setLine n { s.line n with qualified := e.level, reports := rest }
  let r := t.source (sourceOf n)
  if r.enabled && r.takesEdge e then State.follow s ((t.takeEvent (sourceOf n)).reportWake) else t

/-- QUALIFIED_CHANGE (R47): the oldest report of the line, where it is this change. Another or none leaves the part as it
is (log 3). -/
def execQualifiedChange (n : LineNo) (e : Edge) (s : State) : Outcome :=
  .next
    (match (s.line n).reports with
    | first :: rest => if s.sampled n && first == e then s.takeChange n e rest else s
    | [] => s)

end Sys2Proof.Machine
end

