-- ==== Sys2Proof/Machine/Deadlines.lean ====
section
/-! DEFINITION. The meanings of the deadline rows: the delivery of an expiry, escalation and retraction (06). -/

namespace Sys2Proof.Machine

/-- Whether part time runs (R100). -/
def State.partTimeRuns (s : State) : Bool := s.power == .active || s.power == .waking

/-- Whether part time has reached the expiry time, modulo 2^32 (R105): until it does, the remaining time lies between 1
and 65535 µs (R106). -/
def Timer.reached (t : Timer) (now : Time) : Bool := (t.expiry - now).toNat == 0 || 65535 < (t.expiry - now).toNat

/-- Whether the timer's expiry is to be marked delivered now (R105). -/
def Timer.due (t : Timer) (now : Time) : Bool := !t.delivered && t.reached now

/-- Whether the timer's expiry has been delivered to the Source Table (R105): it is from the moment part time reaches the
expiry time, whether or not its row has marked it yet, and stays so once marked (log 3). -/
def Timer.expired (t : Timer) (now : Time) : Bool := t.delivered || t.reached now

/-- Every expiry that part time has reached is marked delivered, as it was when part time reached it: what stands when part
time stops at WATCH entry (R105). -/
def State.deliverReached (s : State) : State :=
  { s with timers := Table.build fun i => (s.timer i).map fun t => { t with delivered := t.expired s.partTime } }

/-- TIMER_EXPIRY_DELIVERED (R105): the expiry of the source's timer, which part time has reached, is marked delivered to the
Source Table. Without one that has been reached while part time runs, nothing happens (log 3). -/
def execTimerExpiryDelivered (i : SourceNo) (s : State) : Outcome :=
  .next
    (match s.timer i with
    | some t => if s.partTimeRuns && t.due s.partTime then s.setTimer i (some { t with delivered := true }) else s
    | none => s)

/-- The WAIT expiry of a PENDING source at its expiry time (R109): the timer goes, the source is ESCALATED, and its
binder gets an ESCALATED incident that names the fallback; the offers follow. -/
def State.escalate (s : State) (i : SourceNo) (time : Time) : State :=
  let r := s.source i
  let t := (s.stopTimer i).setSource i { r with state := .escalated }
  State.follow s (t.writeIncident .escalated i r.fallback 0#8 time)

/-- The timer whose delivered expiry of this kind can be taken now: the Source Table takes expiries in ACTIVE and WAKING
(R8). -/
def State.expiryOf (s : State) (i : SourceNo) (kind : TimerKind) : Option Timer :=
  match s.timer i with
  | some t => if s.partTimeRuns && t.expired s.partTime && t.kind == kind then some t else none
  | none => none

/-- WAIT_EXPIRY (R109). Without a delivered WAIT expiry nothing happens (log 3); on a record that is not PENDING, which
R104 rules out, the timer goes and nothing else changes (log 19). -/
def execWaitExpiry (i : SourceNo) (s : State) : Outcome :=
  .next
    (match s.expiryOf i .wait with
    | some t => if (s.source i).state = .pending then s.escalate i t.expiry else s.stopTimer i
    | none => s)

/-- The port's list with the HELD entry of the source marked RETRACTED (R115). -/
def State.markLost (s : State) (p : Port) (i : SourceNo) : State :=
  s.setClaimList p ((s.claimList p).map fun e => if e.names i && e.isHeld then { e with status := .retracted } else e)

/-- The SERVICE expiry of port `p`'s claim at its expiry time (R115): the entry becomes RETRACTED, the binder gets a
RETRACTED incident naming `p`, and the source becomes ESCALATED with its count raised by one, or QUIET where it is
disabled; the offers follow. -/
def State.retract (s : State) (p : Port) (i : SourceNo) (time : Time) : State :=
  let t := ((s.markLost p i).stopTimer i).writeIncident .retracted i (some p) 0#8 time
  State.follow s
    (if (t.source i).enabled then
      let u := t.setSource i { t.source i with state := .escalated }
      u.raiseCount i time
    else t.makeQuiet i)

/-- SERVICE_EXPIRY (R115). Without a delivered SERVICE expiry nothing happens (log 3); on a record that is not CLAIMED,
which R104 rules out, the timer goes and nothing else changes (log 19). -/
def execServiceExpiry (i : SourceNo) (s : State) : Outcome :=
  .next
    (match s.expiryOf i .service with
    | some t =>
      match (s.source i).state with
      | .claimed p => s.retract p i t.expiry
      | .quiet | .pending | .escalated => s.stopTimer i
    | none => s)

end Sys2Proof.Machine
end

