-- ==== Sys2Proof/Machine/IncidentCommands.lean ====
section
/-! DEFINITION. The meanings of READ_INCIDENT and of the Incident Queue's part of a port clear (07; R147). -/

namespace Sys2Proof.Machine

/-- READ_INCIDENT's ten bytes: table F (R128). -/
def incidentPayload (r : Incident) (overflow : Bool) (remaining : Nat) : List Byte :=
  [r.kind.byte, byteOf r.source.val, portByte r.port, r.detail] ++ timeBytes r.time ++
    [overflowFlags overflow, byteOf remaining]

/-- READ_INCIDENT taken (R128, R129): the oldest record is removed and answered, and the flag is cleared, after it has
been read, where the queue empties; an empty queue answers EMPTY. -/
def takeReadIncident (p : Port) : Taking := fun s =>
  match (s.queue p).records with
  | r :: rest =>
    (s.setQueue p ⟨rest, (s.queue p).overflow && !rest.isEmpty⟩,
      okWith (incidentPayload r (s.queue p).overflow rest.length))
  | [] => (s, ⟨.empty, [overflowFlags (s.queue p).overflow, 0#8]⟩)

/-- READ_INCIDENT (R128). -/
def execReadIncident (p : Port) (s : State) : Outcome :=
  .next (s.ownerTakes p .readIncident (.readIncident p) (takeReadIncident p))

/-- The Link Interface once the first part of a port clear is taken: PORT_CLEAR stays in hand until its answer, and the
Offer Unit's part is next (R147). -/
def Link.beginClear (l : Link) (p : Port) : Link :=
  { l with
    clearing := .offerUnitNext
    inHand :=
      match l.inHand with
      | some h => some h
      | none => some ⟨.portClear, some (.portClear p), true⟩ }

/-- PORT_CLEAR (R147, R132): the port's Incident Queue is emptied and its flag cleared. The power state is checked at this
part (R139). -/
def execPortClear (p : Port) (s : State) : Outcome :=
  .next
    (if s.handsOn p (.portClear p) then
      if s.power.passes .portClear then
        (s.setQueue p IncidentQueue.default).setLink p ((s.link p).beginClear p)
      else s.refusePower p .portClear
    else s)

end Sys2Proof.Machine
end

