-- ==== Sys2Proof/Machine/PowerControl.lean ====
section
/-! DEFINITION. The meanings of the settings commands, the power commands, the wake report, the table check and the reset
pins (09). -/

namespace Sys2Proof.Machine

/-! ## The settings page -/

/-- The two bytes of a setting (R152). -/
def Settings.bytes (t : Settings) : Fin 4 → List Byte
  | 0 => [0#8, t.controlSet.setWidth 8]
  | 1 => [0#8, t.groupMask]
  | 2 => [0#8, t.segmentMask]
  | 3 => t.lastResetCause.bytes

/-- READ_SETTING taken (R167): an identifier from 4 on is BAD_ARGUMENT. -/
def takeReadSetting (identifier : Byte) : Taking := fun s =>
  match settingArg identifier with
  | some id => (s, okWith (identifier :: s.settings.bytes id))
  | none => (s, refuse .badArgument)

/-- READ_SETTING (R167). -/
def execReadSetting (p : Port) (identifier : Byte) (s : State) : Outcome :=
  .next (s.ownerTakes p .readSetting (.readSetting p identifier) (takeReadSetting identifier))

/-- WRITE_SETTING taken (R168): the value, the sender's membership in the control set, then the write, answered with the
value now in force. -/
def takeWriteSetting {α : Type} (p : Port) (id : Fin 4) (value? : Option α) (write : Settings → α → Settings) :
    Taking := fun s =>
  match value? with
  | none => (s, refuse .badArgument)
  | some v =>
    if s.settings.controlSet.has p then
      ({ s with settings := write s.settings v }, okWith (byteOf id.val :: (write s.settings v).bytes id))
    else (s, refuse .denied)

/-- WRITE_SETTING of the control set (R168): a non-empty set. -/
def execWriteSettingControlSet (p : Port) (value : Half) (s : State) : Outcome :=
  .next (s.ownerTakes p .writeSetting (.writeSettingControlSet p value)
    (takeWriteSetting p 0 (controlSetArg value) fun t v => { t with controlSet := v }))

/-- WRITE_SETTING of the watch-hold group mask (R168). -/
def execWriteSettingWatchHoldGroupMask (p : Port) (value : Half) (s : State) : Outcome :=
  .next (s.ownerTakes p .writeSetting (.writeSettingWatchHoldGroupMask p value)
    (takeWriteSetting p 1 (maskArg value) fun t v => { t with groupMask := v }))

/-- WRITE_SETTING of the watch-hold segment mask (R168). -/
def execWriteSettingWatchHoldSegmentMask (p : Port) (value : Half) (s : State) : Outcome :=
  .next (s.ownerTakes p .writeSetting (.writeSettingWatchHoldSegmentMask p value)
    (takeWriteSetting p 2 (maskArg value) fun t v => { t with segmentMask := v }))

/-- WRITE_SETTING of the last reset cause taken (R168): READ_ONLY after the value and the permission. -/
def takeWriteCause (p : Port) (value : Half) : Taking := fun s =>
  match maskArg value with
  | none => (s, refuse .badArgument)
  | some _ => if s.settings.controlSet.has p then (s, refuse .readOnly) else (s, refuse .denied)

/-- WRITE_SETTING of the last reset cause (R168). -/
def execWriteSettingLastResetCause (p : Port) (value : Half) (s : State) : Outcome :=
  .next (s.ownerTakes p .writeSetting (.writeSettingLastResetCause p value) (takeWriteCause p value))

/-! ## The clearings (R153) -/

/-- Every block at its reset value, with the given settings page and power state (R153). The pins of the part and the queue
of commands are outside what a clearing sets. -/
def State.clear (s : State) (settings : Settings) (power : PowerState) : State where
  sources := Vector.replicate 96 SourceRec.default
  claims := Vector.replicate 4 []
  timers := Vector.replicate 96 none
  partTime := 0#32
  lines := Table.build fun n => (s.line n).clear
  samplerTime := 0
  offers := Vector.replicate 4 OfferPort.default
  queues := Vector.replicate 4 IncidentQueue.default
  links := Table.build fun p => (s.link p).cut
  power := power
  wakingSince := 0#32
  initTime := 0
  wakeReports := 0
  resetnLow := s.resetnLow
  supplyReady := s.supplyReady
  hold := s.hold
  settings := settings
  pending := s.pending

/-- A clearing that port `p`'s command causes: its Link Interface sends the OK answer (R142). -/
def State.clearFor (s : State) (p : Port) (code : HostCode) (settings : Settings) (power : PowerState)
    (store : Option Answer) : State :=
  (s.clear settings power).setLink p ((s.link p).cutIssuer ((okWith []).answer code) store)

/-- Whether any port clear stands between its first and its last part (R147). -/
def State.anyClearing (s : State) : Bool := (List.finRange 4).any fun p => (s.link p).clearing != .idle

/-- What WATCH and DORMANT check, in order (R160, R164): DENIED outside the control set, BUSY while a HELD entry or a port
clear stands. -/
def State.restRefusal (s : State) (p : Port) : Option Result :=
  if !s.settings.controlSet.has p then some .denied
  else if s.anyHeld then some .busy
  else if s.anyClearing then some .busy
  else none

/-! ## Power commands -/

/-- WATCH taken (R160): part time stops, with the expiries it has reached delivered (R105), the unwatched lines freeze
(R59), everything else is kept. -/
def takeWatch (p : Port) : Taking := fun s =>
  match s.restRefusal p with
  | some r => (s, refuse r)
  | none => ({ s.deliverReached.freezeLines with power := .watch }, okWith [])

/-- WATCH (R160). -/
def execWatch (p : Port) (s : State) : Outcome := .next (s.ownerTakes p .watch (.watch p) (takeWatch p))

/-- DORMANT taken where its checks pass (R164): every block is cleared, the settings page but its last reset cause too, and
every repeat store is empty. -/
def State.enterDormant (s : State) (p : Port) : State :=
  s.clearFor p .dormant (Settings.fresh s.settings.lastResetCause) .dormant none

/-- DORMANT (R164). -/
def execDormant (p : Port) (s : State) : Outcome :=
  .next
    (if s.handsOn p (.dormant p) && s.power.passes .dormant && (s.restRefusal p).isNone then s.enterDormant p
    else s.ownerTakes p .dormant (.dormant p) fun s => (s, refuse ((s.restRefusal p).getD .busy)))

/-- WAKE taken outside DORMANT (R165): it starts WAKING from WATCH and has no effect in ACTIVE and WAKING. -/
def takeWake : Taking := fun s => (if s.power = .watch then s.startWaking else s, okWith [])

/-- WAKE taken in DORMANT (R165): a full reset with cause DORMANT_EXIT, every repeat store empty (R145). -/
def State.leaveDormant (s : State) (p : Port) : State :=
  s.clearFor p .wake (Settings.fresh .dormantExit) .init none

/-- WAKE (R165). -/
def execWake (p : Port) (s : State) : Outcome :=
  .next
    (if s.handsOn p (.wake p) && s.power == .dormant then s.leaveDormant p
    else s.ownerTakes p .wake (.wake p) takeWake)

/-- RESET taken from a member of the control set (R158): a soft reset that keeps the writable settings; the sender's
repeat store holds the RESET answer (R145). -/
def State.softReset (s : State) (p : Port) : State :=
  s.clearFor p .reset { s.settings with lastResetCause := .command p } .init (some ((okWith []).answer .reset))

/-- RESET (R158): DENIED outside the control set. -/
def execReset (p : Port) (s : State) : Outcome :=
  .next
    (if s.handsOn p (.reset p) && s.power.passes .reset && s.settings.controlSet.has p then s.softReset p
    else s.ownerTakes p .reset (.reset p) fun s => (s, refuse .denied))

/-- WAKE_REPORT (R162): Power Control takes a report made and not yet taken; in WATCH it starts WAKING, in any other state
it has no effect. Without a report nothing happens (log 3). -/
def execWakeReport (s : State) : Outcome :=
  .next
    (if s.wakeReports = 0 then s
    else
      let t := { s with wakeReports := s.wakeReports - 1 }
      if t.power = .watch then t.startWaking else t)

/-- Whether WAKING has lasted 20 µs of part time (R163). -/
def State.wakingDone (s : State) : Bool := s.power == .waking && Config.wakingTime ≤ (s.partTime - s.wakingSince).toNat

/-- WAKING_END (R163): after 20 µs of part time in WAKING, ACTIVE. -/
def execWakingEnd (s : State) : Outcome := .next (if s.wakingDone then { s with power := .active } else s)

/-! ## The table check -/

/-- Whether the table check runs: in INIT, with nothing holding the part in reset (R154, R155). -/
def State.checking (s : State) : Bool := s.power == .init && !s.inHold

/-- Whether the check finds a fault in a writable settings field (R155): one that its storage does not hold, or an empty
control set. -/
def State.settingsFault (s : State) (found : CheckFinding) : Bool :=
  found == .settingsFault || s.settings.controlSet == 0#4

/-- ACTIVE entry from INIT: each line is read, with no span and no report (R156, R46). -/
def State.enterActive (s : State) : State :=
  { s.mapLines (fun _ l => l.read) with power := .active, initTime := 0 }

/-- FAILED entry (R157): a fault in a writable settings field first sets those fields to their full-reset values. -/
def State.enterFailed (s : State) (settingsBad : Bool) : State :=
  { s with
    settings := if settingsBad then Settings.fresh s.settings.lastResetCause else s.settings
    power := .failed
    initTime := 0 }

/-- TABLE_CHECK (R155 to R157): the check ends with what it found. Where no check runs nothing happens (log 3). -/
def execTableCheck (found : CheckFinding) (s : State) : Outcome :=
  .next
    (if s.checking then
      if found = .storageFault || s.settingsFault found then s.enterFailed (s.settingsFault found) else s.enterActive
    else s)

/-! ## Power-on and RESETn (R154) -/

/-- A full reset of the given cause: the hold ends, every block is cleared, INIT begins its table check (R153, R154). -/
def State.fullReset (s : State) (cause : ResetCause) : State :=
  { s.clear (Settings.fresh cause) .init with hold := .released }

/-- A hold begins: INIT without the table check, every block at its reset value. The last reset cause is set by the full
reset that ends the hold (log 14). -/
def State.beginHold (s : State) (hold : Hold) : State :=
  { s.clear (Settings.fresh s.settings.lastResetCause) .init with hold := hold }

/-- POWER_ON (R154): the supply comes up and holds the part in reset until it and the reference clock are ready. -/
def execPowerOn (s : State) : Outcome := .next { s.beginHold .powerOn with supplyReady := false }

/-- SUPPLY_AND_REFCLK_READY (R154): the power-on hold ends with a full reset of cause POWER_ON, unless RESETn is low. -/
def execSupplyAndRefclkReady (s : State) : Outcome :=
  .next
    (if s.supplyReady then s
    else if s.resetnLow then { s with supplyReady := true }
    else { s.fullReset .powerOn with supplyReady := true })

/-- RESETN_LOW (R154): RESETn falls; with the supply in range a hold of cause PIN begins, and in a power-on hold the hold
goes on. -/
def execResetnLow (s : State) : Outcome :=
  .next
    (if s.resetnLow then s
    else if s.supplyReady then { s.beginHold .pin with resetnLow := true }
    else { s with resetnLow := true })

/-- The cause that the full reset at the end of a hold records (R154). -/
def Hold.cause : Hold → ResetCause
  | .powerOn => .powerOn
  | .pin | .released => .pin

/-- RESETN_RELEASE (R154): RESETn rises; a full reset is taken, unless the power-on hold goes on. -/
def execResetnRelease (s : State) : Outcome :=
  .next
    (if !s.resetnLow then s
    else if s.supplyReady then { s.fullReset s.hold.cause with resetnLow := false }
    else { s with resetnLow := false })

end Sys2Proof.Machine
end

