-- ==== Sys2Proof/Machine/Dispatch.lean ====
section
/-! DEFINITION. One arm for each row of the opcode table: its meaning. -/

namespace Sys2Proof.Machine

/-- What a command does to everything but the queue of commands. -/
def exec (i : Instr) (s : State) : Host.Outcome State Fault Refusal :=
  match i with
  | .status p => Sys2Proof.Machine.execStatus p s
  | .top p => Sys2Proof.Machine.execTop p s
  | .claimTop p => Sys2Proof.Machine.execClaimTop p s
  | .claim p src => Sys2Proof.Machine.execClaim p src s
  | .complete p src => Sys2Proof.Machine.execComplete p src s
  | .defer p src => Sys2Proof.Machine.execDefer p src s
  | .listClaims p => Sys2Proof.Machine.execListClaims p s
  | .setThreshold p threshold => Sys2Proof.Machine.execSetThreshold p threshold s
  | .post p src => Sys2Proof.Machine.execPost p src s
  | .bind p src => Sys2Proof.Machine.execBind p src s
  | .unbind p src => Sys2Proof.Machine.execUnbind p src s
  | .configurePriority p src value => Sys2Proof.Machine.execConfigurePriority p src value s
  | .configureGroup p src value => Sys2Proof.Machine.execConfigureGroup p src value s
  | .configureTrigger p src value => Sys2Proof.Machine.execConfigureTrigger p src value s
  | .configureQualify p src value => Sys2Proof.Machine.execConfigureQualify p src value s
  | .configureWaitLimit p src value => Sys2Proof.Machine.execConfigureWaitLimit p src value s
  | .configureServiceLimit p src value => Sys2Proof.Machine.execConfigureServiceLimit p src value s
  | .configureFallback p src value => Sys2Proof.Machine.execConfigureFallback p src value s
  | .configurePosters p src value => Sys2Proof.Machine.execConfigurePosters p src value s
  | .readSource p src => Sys2Proof.Machine.execReadSource p src s
  | .enable p src => Sys2Proof.Machine.execEnable p src s
  | .disable p src => Sys2Proof.Machine.execDisable p src s
  | .lend p src borrower => Sys2Proof.Machine.execLend p src borrower s
  | .recallLoan p src => Sys2Proof.Machine.execRecall p src s
  | .returnLoan p src => Sys2Proof.Machine.execReturnLoan p src s
  | .readIncident p => Sys2Proof.Machine.execReadIncident p s
  | .portClear p => Sys2Proof.Machine.execPortClear p s
  | .portClearOfferUnitPart p => Sys2Proof.Machine.execPortClearOfferUnitPart p s
  | .portClearSourceTablePart p => Sys2Proof.Machine.execPortClearSourceTablePart p s
  | .repeatAnswer p => Sys2Proof.Machine.execRepeatAnswer p s
  | .readSetting p identifier => Sys2Proof.Machine.execReadSetting p identifier s
  | .writeSettingControlSet p value => Sys2Proof.Machine.execWriteSettingControlSet p value s
  | .writeSettingWatchHoldGroupMask p value => Sys2Proof.Machine.execWriteSettingWatchHoldGroupMask p value s
  | .writeSettingWatchHoldSegmentMask p value => Sys2Proof.Machine.execWriteSettingWatchHoldSegmentMask p value s
  | .writeSettingLastResetCause p value => Sys2Proof.Machine.execWriteSettingLastResetCause p value s
  | .watch p => Sys2Proof.Machine.execWatch p s
  | .dormant p => Sys2Proof.Machine.execDormant p s
  | .wake p => Sys2Proof.Machine.execWake p s
  | .reset p => Sys2Proof.Machine.execReset p s
  | .chipSelectFall p => Sys2Proof.Machine.execChipSelectFall p s
  | .frameComplete p bytes => Sys2Proof.Machine.execFrameComplete p bytes s
  | .answerFrameSent p => Sys2Proof.Machine.execAnswerFrameSent p s
  | .chipSelectRise p => Sys2Proof.Machine.execChipSelectRise p s
  | .lineRawChange line high => Sys2Proof.Machine.execLineRawChange line high s
  | .qualifyTimeReached line => Sys2Proof.Machine.execQualifyTimeReached line s
  | .qualifiedChange line edge => Sys2Proof.Machine.execQualifiedChange line edge s
  | .wakeReport => Sys2Proof.Machine.execWakeReport s
  | .timerExpiryDelivered src => Sys2Proof.Machine.execTimerExpiryDelivered src s
  | .waitExpiry src => Sys2Proof.Machine.execWaitExpiry src s
  | .serviceExpiry src => Sys2Proof.Machine.execServiceExpiry src s
  | .wakingEnd => Sys2Proof.Machine.execWakingEnd s
  | .tableCheck found => Sys2Proof.Machine.execTableCheck found s
  | .powerOn => Sys2Proof.Machine.execPowerOn s
  | .resetnLow => Sys2Proof.Machine.execResetnLow s
  | .resetnRelease => Sys2Proof.Machine.execResetnRelease s
  | .supplyAndRefclkReady => Sys2Proof.Machine.execSupplyAndRefclkReady s

end Sys2Proof.Machine
end

