-- ==== Sys2Proof/Machine/Clock.lean ====
section
/-! DEFINITION. The passage of one microsecond, which is what an empty queue lets happen (log 2): the counters that run in the
present power state advance (R44, R100, R155, R163), and what is due at that moment is put into the queue. -/

namespace Sys2Proof.Machine

/-- The lines whose span has reached the qualify time (R45). -/
def State.dueSpans (s : State) : List Instr :=
  ((List.finRange 64).filter fun n => s.sampled n && (s.line n).spanReached s.samplerTime (s.qualifyTime n)).map
    Instr.qualifyTimeReached

/-- The sources whose timer's expiry is to be delivered (R105). -/
def State.dueTimers (s : State) : List Instr :=
  ((List.finRange 96).filter fun i =>
    match s.timer i with
    | some t => t.due s.partTime
    | none => false).map Instr.timerExpiryDelivered

/-- The end of WAKING (R163). -/
def State.dueWaking (s : State) : List Instr := if s.wakingDone then [.wakingEnd] else []

/-- The end of the table check of a part without a fault (R155, log 10). -/
def State.dueCheck (s : State) : List Instr := if Config.initLimit ≤ s.initTime then [.tableCheck .nothing] else []

/-- One microsecond passes with an empty queue. -/
def State.tick (s : State) : State :=
  if s.inHold then s
  else
    match s.power with
    | .init =>
      let t := { s with initTime := s.initTime + 1 }
      { t with pending := t.dueCheck }
    | .active | .waking =>
      let t := { s with partTime := s.partTime + 1#32, samplerTime := s.samplerTime + 1 }
      { t with pending := t.dueSpans ++ t.dueTimers ++ t.dueWaking }
    | .watch =>
      let t := { s with samplerTime := s.samplerTime + 1 }
      { t with pending := t.dueSpans }
    | .dormant | .failed => s

end Sys2Proof.Machine
end

