-- ==== Sys2Proof/Safety.lean ====
section
/-! DEFINITION. What a sound state of the part is, in the words of the rules, and what it means that a happening leaves the
rest of the part alone. The statements are made in these terms. -/

namespace Sys2Proof.Machine

/-! ## Records and timers -/

/-- A source record as R3, R4, R6 and R25 allow it. -/
structure SourceRec.Sound (r : SourceRec) (i : SourceNo) : Prop where
  /-- A source's count is at most 15 (R4). -/
  count_le : r.count ≤ 15
  /-- It is 0 when the source is QUIET (R4). -/
  quiet_count : r.state = .quiet → r.count = 0
  /-- It is at least 1 when the source is PENDING or ESCALATED (R4). -/
  waiting_count : r.state = .pending ∨ r.state = .escalated → 1 ≤ r.count
  /-- A disabled source is QUIET or CLAIMED (R6). -/
  disabled_state : r.enabled = false → r.state = .quiet ∨ ∃ p, r.state = .claimed p
  /-- A source with no binder holds the default record: QUIET, disabled, unlent and every field at its default value
  (R5, R25). -/
  unbound : r.binder = none → r = SourceRec.default
  /-- A source's borrower, when present, is a port other than its binder (R25). -/
  borrower_ne : r.borrower ≠ none → r.borrower ≠ r.binder
  /-- A posted record's trigger and qualify hold RISING and 0 (R3). -/
  posted_fields : isPosted i = true → r.trigger = .rising ∧ r.qualify = 0
  /-- A wired record's posters hold {} (R3). -/
  wired_posters : isPosted i = false → r.posters = 0#4

/-- A source has a running timer only while it is PENDING (kind WAIT) or CLAIMED (kind SERVICE) (R102). -/
def timerFits (r : SourceRec) (t : Option Timer) : Prop :=
  match t with
  | none => True
  | some t =>
    match t.kind with
    | .wait => r.state = .pending
    | .service => ∃ p, r.state = .claimed p

/-- Every record is sound and its timer fits its state. -/
def State.RecordsSound (s : State) : Prop :=
  ∀ i, (s.source i).Sound i ∧ timerFits (s.source i) (s.timer i)

/-! ## Claims -/

/-- Each claim list holds at most 8 entries and names no source twice (R81); a source is CLAIMED exactly when one HELD
entry names it, in the list of its claimant (R82). -/
structure State.ClaimsSound (s : State) : Prop where
  capacity : ∀ p, (s.claimList p).length ≤ 8
  once : ∀ p, ((s.claimList p).map (·.source)).Nodup
  held_iff : ∀ p i, (s.source i).state = .claimed p ↔ ∃ e ∈ s.claimList p, e.source = i ∧ e.status = .held

/-- The levels at claim of each port's HELD entries, in claim order, are strictly decreasing (R83). -/
def State.ClaimsNest (s : State) : Prop :=
  ∀ p, (((s.claimList p).filter (·.isHeld)).map (·.level)).Pairwise (· > ·)

/-- In WATCH and WAKING no port holds a HELD entry (R107). -/
def State.NoClaimAtRest (s : State) : Prop :=
  s.power = .watch ∨ s.power = .waking → ∀ p, ∀ e ∈ s.claimList p, e.status ≠ .held

/-! ## Queues, offers, settings -/

/-- Each queue holds at most 8 records (R122), and an empty queue has its flag clear (R129). -/
def State.QueuesSound (s : State) : Prop :=
  ∀ p, (s.queue p).records.length ≤ 8 ∧ ((s.queue p).records = [] → (s.queue p).overflow = false)

/-- Each attention line is asserted exactly when its port's top is present (R77); a source without a binder is
disabled (R25). -/
def State.AttentionSound (s : State) : Prop :=
  (∀ p, (s.offer p).attention = (s.top p).isSome) ∧ ∀ i, (s.source i).binder = none → (s.source i).enabled = false

/-- The control set is never empty (R166). -/
def State.ControlSetNonempty (s : State) : Prop := s.settings.controlSet ≠ 0#4

/-! ## The states that keep nothing -/

/-- Whether the power state keeps every block at its reset value (R7, R79, R100, R108, R122). -/
def PowerState.keepsNothing : PowerState → Bool
  | .init | .dormant | .failed => true
  | .active | .watch | .waking => false

/-- In INIT, DORMANT and FAILED every record is default, every claim list and queue is empty, no timer is held, every
threshold is 257 with last-reported top absent, flag clear and attention line released, part time is 0, and every line's raw
and qualified level are low with no span and no report (R46); a hold keeps the part in INIT (R154); no port clear stands
outside ACTIVE (R147). -/
structure State.RestSound (s : State) : Prop where
  sources : s.power.keepsNothing = true → ∀ i, s.source i = SourceRec.default
  claims : s.power.keepsNothing = true → ∀ p, s.claimList p = []
  timers : s.power.keepsNothing = true → ∀ i, s.timer i = none
  offers : s.power.keepsNothing = true → ∀ p, s.offer p = OfferPort.default
  queues : s.power.keepsNothing = true → ∀ p, s.queue p = IncidentQueue.default
  partTime : s.power.keepsNothing = true → s.partTime = 0#32
  lines : s.power.keepsNothing = true → ∀ n, s.line n = { Line.default with pin := (s.line n).pin }
  hold : s.inHold = true → s.power = .init
  noClear : s.power ≠ .active → ∀ p, (s.link p).clearing = .idle

/-- A command waits only behind a command in hand (R139). -/
def State.LinksSound (s : State) : Prop := ∀ p, (s.link p).inHand = none → (s.link p).waiting = none

/-! ## What a happening leaves alone -/

/-- Nothing changed in the Line Sampler, in Power Control, in part time and in the queue of commands. -/
structure KeepsSurroundings (s t : State) : Prop where
  lines : t.lines = s.lines
  samplerTime : t.samplerTime = s.samplerTime
  partTime : t.partTime = s.partTime
  power : t.power = s.power
  wakingSince : t.wakingSince = s.wakingSince
  initTime : t.initTime = s.initTime
  wakeReports : t.wakeReports = s.wakeReports
  resetnLow : t.resetnLow = s.resetnLow
  supplyReady : t.supplyReady = s.supplyReady
  hold : t.hold = s.hold
  settings : t.settings = s.settings
  pending : t.pending = s.pending

/-- Every record and every timer but those of one source is unchanged. -/
def KeepsOtherSources (i : SourceNo) (s t : State) : Prop :=
  ∀ j, j ≠ i → t.source j = s.source j ∧ t.timer j = s.timer j

/-- Every Link Interface but that of one port is unchanged. -/
def KeepsOtherLinks (p : Port) (s t : State) : Prop := ∀ q, q ≠ p → t.link q = s.link q

/-- The Offer Unit has followed the change of the other blocks (R72, R76, R77): last-reported tops are kept, a flag is
set where the top changed to one that is not the last-reported top and is otherwise as it was, and the attention line is
asserted exactly while a top is present. -/
def FlagsFollow (s t : State) : Prop :=
  ∀ q, (t.offer q).lastReported = (s.offer q).lastReported ∧
    ((t.offer q).changed = true ↔
      (s.offer q).changed = true ∨ (s.top q ≠ t.top q ∧ t.top q ≠ (s.offer q).lastReported)) ∧
    ((t.offer q).attention = true ↔ ∃ i, t.top q = some i)

/-- The Offer Unit has followed, and no threshold changed. -/
def OffersFollow (s t : State) : Prop :=
  FlagsFollow s t ∧ ∀ q, (t.offer q).threshold = (s.offer q).threshold

/-- A command of port `p` changed the records, timers, lists, queues and offers of one source `i` at most, and nothing else
of the part but the port's Link Interface; the offers follow. -/
structure ChangesOneSource (p : Port) (i : SourceNo) (s t : State) : Prop where
  surroundings : KeepsSurroundings s t
  otherSources : KeepsOtherSources i s t
  otherLinks : KeepsOtherLinks p s t
  offers : OffersFollow s t

/-- Port `p`'s Link Interface has taken an owner's answer to the command in hand (R139, R140, R144). -/
def Answered (p : Port) (code : HostCode) (r : Result) (payload : List Byte) (s t : State) : Prop :=
  t.link p = (s.link p).finish s.power (some ⟨code.byte, r, payload⟩) true

/-- The Link Interface of port `p`, whose RESET, DORMANT or WAKE has cleared the part: nothing in hand or waiting and no port
clear, the given repeat store (R145), and the OK answer on its way where the command's transaction is open (R134, R142). -/
def IssuerAnswered (p : Port) (code : HostCode) (store : Option Answer) (s t : State) : Prop :=
  t.link p = {
    transaction :=
      if (s.link p).answerWanted = true ∧ (s.link p).transaction = .processing then .answering
      else if (s.link p).transaction = .deselected then .deselected
      else .draining
    inHand := none
    waiting := none
    clearing := .idle
    repeatStore := store
    answerFrame := if (s.link p).answerWanted = true then some ⟨code.byte, .ok, []⟩ else none }

/-- The command of port `p` reaches its owner in ACTIVE. -/
abbrev Ready (s : State) (p : Port) (c : Instr) : Prop := s.handsOn p c = true ∧ s.power = .active

/-- The part with an owner's refusal answered to port `p`, and nothing else changed (R143, R151). -/
def refusedWith (s : State) (p : Port) (code : HostCode) (r : Result) : State :=
  s.answer p (some ⟨code.byte, r, []⟩) true

/-! ## Happenings in the words of their rules -/

/-- The timer a start request at part time `now` leaves (R102). -/
def timerFrom (now : Time) (kind : TimerKind) (limit : Half) : Option Timer :=
  if limit = 0#16 then none else some ⟨kind, now + limit.setWidth 32, false⟩

/-- A count raised by one up to 15 (R49). -/
def raisedCount (c : Nat) : Nat := if c < 15 then c + 1 else c

/-- The queues after a raise of the count of `i` at part time `now` (R49, R50), from the queues of `s`. -/
def SaturationWritten (i : SourceNo) (now : Time) (s t : State) : Prop :=
  ∀ q, t.queue q =
    if (s.source i).binder = some q ∧ (s.source i).count = 14 then
      (s.queue q).push ⟨.countSaturated, i, none, 0#8, now⟩
    else s.queue q

/-- One event taken on source `i` (R48, R49, R50). -/
structure EventTaken (i : SourceNo) (s t : State) : Prop where
  quiet : (s.source i).state = .quiet →
    t.source i = { s.source i with state := .pending, count := 1 } ∧
      t.timer i = timerFrom s.partTime .wait (s.source i).waitLimit ∧ t.queues = s.queues
  other : (s.source i).state ≠ .quiet →
    t.source i = { s.source i with count := raisedCount (s.source i).count } ∧ t.timer i = s.timer i ∧
      SaturationWritten i s.partTime s t

/-- A claim taken by port `p` on source `i` (R87). -/
structure ClaimTaken (p : Port) (i : SourceNo) (s t : State) : Prop where
  list : t.claimList p =
    (s.claimList p).filter (fun e => !(e.source == i && e.status == .retracted)) ++ [⟨i, s.level i, .held, s.partTime⟩]
  otherLists : ∀ q, q ≠ p → t.claimList q = s.claimList q
  record : t.source i = { s.source i with state := .claimed p, count := 0 }
  timer : t.timer i = timerFrom s.partTime .service (s.source i).serviceLimit
  queues : t.queues = s.queues

/-- The claim answer: table C of R151, as the claim found the source (R88). -/
def claimAnswer (s : State) (i : SourceNo) : List Byte :=
  [byteOf i.val, reportedLevel (s.level i),
   flagsByte false (unnumberedMark (s.level i)) ((s.source i).state == .escalated) false,
   byteOf (s.source i).count] ++ timeBytes s.partTime

/-- The incidents that the Source Table's part of the port clear of `p` writes to port `q`'s queue, in order (R126):
for each HELD entry RELEASED, then COUNT_SATURATED where its count reached 15, then LOAN_ENDED for each source borrowed. -/
def clearIncidents (s : State) (p q : Port) : List Incident :=
  ((s.claimList p).filter fun e => e.isHeld && (s.source e.source).binder == some q).flatMap (fun e =>
    ⟨.released, e.source, some p, 0#8, s.partTime⟩ ::
      (if (s.source e.source).enabled ∧ (s.source e.source).count = 14 then
        [⟨.countSaturated, e.source, none, 0#8, s.partTime⟩] else [])) ++
  ((List.finRange 96).filter fun i => (s.source i).borrower == some p && (s.source i).binder == some q).map fun i =>
    ⟨.loanEnded, i, some p, 2#8, s.partTime⟩

end Sys2Proof.Machine
end

