-- ==== Sys2Proof/WellFormed.lean ====
section
/-! DEFINITION. Which commands the outside can bring. The types of the operands carry every bound but one: the bytes of
FRAME_COMPLETE must be one whole frame. -/

namespace Sys2Proof

/-- The bytes are one command frame and nothing after it: code, length, as many argument bytes as the length byte
counts, check byte (R135). -/
def isWholeFrame : List Byte → Bool
  | _ :: length :: rest => rest.length == length.toNat + 1
  | _ => false

/-- A command the outside can bring. FRAME_COMPLETE happens when a whole frame has been received; an argument byte
out of range is well formed, since the part answers it (R149). -/
def Instr.wellFormed : Instr → Bool
  | .frameComplete _ bytes => isWholeFrame bytes
  | .status _ | .top _ | .claimTop _ | .claim _ _ | .complete _ _ | .defer _ _ | .listClaims _
  | .setThreshold _ _ | .post _ _ | .bind _ _ | .unbind _ _ => true
  | .configurePriority _ _ _ | .configureGroup _ _ _ | .configureTrigger _ _ _ | .configureQualify _ _ _
  | .configureWaitLimit _ _ _ | .configureServiceLimit _ _ _ | .configureFallback _ _ _
  | .configurePosters _ _ _ => true
  | .readSource _ _ | .enable _ _ | .disable _ _ | .lend _ _ _ | .recallLoan _ _ | .returnLoan _ _ => true
  | .readIncident _ | .portClear _ | .portClearOfferUnitPart _ | .portClearSourceTablePart _
  | .repeatAnswer _ | .readSetting _ _ => true
  | .writeSettingControlSet _ _ | .writeSettingWatchHoldGroupMask _ _
  | .writeSettingWatchHoldSegmentMask _ _ | .writeSettingLastResetCause _ _ => true
  | .watch _ | .dormant _ | .wake _ | .reset _ => true
  | .chipSelectFall _ | .answerFrameSent _ | .chipSelectRise _ => true
  | .lineRawChange _ _ | .qualifyTimeReached _ | .qualifiedChange _ _ | .wakeReport => true
  | .timerExpiryDelivered _ | .waitExpiry _ | .serviceExpiry _ | .wakingEnd | .tableCheck _ => true
  | .powerOn | .resetnLow | .resetnRelease | .supplyAndRefclkReady => true

end Sys2Proof
end

