-- ==== Sys2Proof/Certificates/Slice0/Obligations.lean ====
section
/-! DEFINITION. The statements about the model, one definition each. Each docstring names the rules it formalises; what it
says of the model's own choices names the log entry. -/

open Sys2Proof Sys2Proof.Machine

/-! ## The queue, the step and the clock -/

/-- A step with a command at the front of the queue is that command on the part with the queue's rest. -/
def Obligations.StepRunsTheFrontCommand : Prop :=
  ∀ (c : Instr) (s : State), step { s with pending := c :: s.pending } = exec c s

/-- Every command in every state answers a next state and leaves the queue as it is: the spec names no stop. -/
def Obligations.EveryCommandAnswersNextAndKeepsTheQueue : Prop :=
  ∀ (c : Instr) (s : State), ∃ t, exec c s = .next t ∧ t.pending = s.pending

/-- With an empty queue one microsecond passes (log 2): part time advances in ACTIVE and WAKING alone, modulo 2^32
(R100); the sampler's measure advances in WATCH too (R44), and the counter of INIT in INIT alone. What becomes due stands in
the queue, each row exactly when it is due and nothing besides: a span that has reached its qualify time (R45), an expiry that
part time has reached (R105), the end of WAKING (R163), and the end of the table check at its limit, which is the model's
choice (R155, log 10). Nothing but the counters and the queue changes. -/
def Obligations.AMicrosecondRunsTheCounters : Prop :=
  ∀ s : State, s.pending = [] → s.inHold = false → ∃ t, step s = .next t ∧
    t = { s with partTime := t.partTime, samplerTime := t.samplerTime, initTime := t.initTime, pending := t.pending } ∧
    t.partTime = (if s.power = .active ∨ s.power = .waking then s.partTime + 1#32 else s.partTime) ∧
    t.samplerTime =
      (if s.power = .active ∨ s.power = .waking ∨ s.power = .watch then s.samplerTime + 1 else s.samplerTime) ∧
    t.initTime = (if s.power = .init then s.initTime + 1 else s.initTime) ∧
    ∀ c, c ∈ t.pending ↔
      (∃ n start, c = .qualifyTimeReached n ∧ s.sampled n = true ∧ (s.line n).span = some start ∧
        (s.source (sourceOf n)).qualify.val ≤ s.samplerTime + 1 - start) ∨
      (∃ i x, c = .timerExpiryDelivered i ∧ (s.power = .active ∨ s.power = .waking) ∧ s.timer i = some x ∧
        x.delivered = false ∧ x.reached (s.partTime + 1#32) = true) ∨
      (c = .wakingEnd ∧ s.power = .waking ∧ 20 ≤ (s.partTime + 1#32 - s.wakingSince).toNat) ∨
      (c = .tableCheck .nothing ∧ s.power = .init ∧ 48 ≤ s.initTime + 1)

/-! ## Command frames -/

/-- The frame of every host command names that command again, whoever its sender; and bytes that name a command begin with
that command's own frame, so that no two frames name one command (R135, R136, R150). -/
def Obligations.CommandFramesRoundTrip : Prop :=
  (∀ (c : Instr) (p : Port) (code : HostCode) (args : List Byte), c.hostForm = some (p, code, args) →
    ∃ bytes, encode c = some bytes ∧ bytes = frameOf code args ∧ isWholeFrame bytes = true ∧ decode p bytes = some c) ∧
  ∀ (p : Port) (bytes : List Byte) (c : Instr), decode p bytes = some c →
    ∃ code args, c.hostForm = some (p, code, args) ∧ frameOf code args <+: bytes

/-- The worked check bytes (R136): 01h 00h gives 15h, 14h 00h gives 03h; the STATUS frame and the NO_ANSWER answer as the
wire carries them; and every answer frame is the marker, the result, the length of the payload, the payload and the check
byte of the three before it (R140). -/
def Obligations.WorkedCheckBytes : Prop :=
  crc8 [0x01#8] = 0x07#8 ∧ crc8 [0x01#8, 0x00#8] = 0x15#8 ∧ crc8 [0x14#8] = 0x6C#8 ∧
    crc8 [0x14#8, 0x00#8] = 0x03#8 ∧
    (∀ p, encode (.status p) = some [0x01#8, 0x00#8, 0x15#8]) ∧
    (∀ p, decode p [0x01#8, 0x00#8, 0x15#8] = some (.status p)) ∧
    (Answer.wire ⟨0x22#8, .noAnswer, []⟩) = [0xA5#8, 0x14#8, 0x00#8, 0x03#8] ∧
    ∀ a : Answer, a.wire =
      [0xA5#8, a.result.byte, BitVec.ofNat 8 a.payload.length] ++ a.payload ++
        [crc8 ([a.result.byte, BitVec.ofNat 8 a.payload.length] ++ a.payload)]

/-! ## Status, ranking and offers -/

/-- STATUS answers the ten bytes of table A and leaves everything but the transaction as it is (R148). -/
def Obligations.StatusReportsTheSender : Prop :=
  ∀ (p : Port) (s : State), s.handsOn p (.status p) = true → s.power ≠ .dormant →
    exec (.status p) s = .next (s.answer p (some ⟨0x01#8, .ok,
      [byteOf p.val, s.power.byte, byteOf ((s.claimList p).countP (·.status == .held)),
       byteOf ((s.claimList p).countP (·.status == .retracted)), byteOf (s.queue p).records.length,
       flagsByte (s.queue p).overflow (s.offer p).changed (s.offer p).attention false] ++ timeBytes s.partTime⟩)
      false)

/-- REPEAT answers the stored code, result and payload, or NO_ANSWER, and keeps the store (R146). -/
def Obligations.RepeatAnswersTheStore : Prop :=
  ∀ (p : Port) (s : State), s.handsOn p (.repeatAnswer p) = true → s.power ≠ .dormant →
    (∀ a, (s.link p).repeatStore = some a →
      exec (.repeatAnswer p) s =
        .next (s.answer p (some ⟨0x22#8, .ok, a.code :: a.result.byte :: a.payload⟩) false)) ∧
    ((s.link p).repeatStore = none →
      exec (.repeatAnswer p) s = .next (s.answer p (some ⟨0x22#8, .noAnswer, []⟩) false))

/-- TOP reports the sender's top in table B's form, records it as last-reported and clears the top-changed flag; nothing
else changes (R74). -/
def Obligations.TopReportsAndRecords : Prop :=
  ∀ (p : Port) (s : State), Ready s p (.top p) →
    (∀ i, s.top p = some i →
      exec (.top p) s = .next
        ((s.setOffer p { s.offer p with lastReported := some i, changed := false }).answer p
          (some ⟨0x02#8, .ok,
            [flagsByte true (unnumberedMark (s.level i)) ((s.source i).state == .escalated) false, byteOf i.val,
             reportedLevel (s.level i), byteOf (s.source i).count]⟩) true)) ∧
    (s.top p = none →
      exec (.top p) s = .next
        ((s.setOffer p { s.offer p with lastReported := none, changed := false }).answer p
          (some ⟨0x02#8, .ok, [0#8, 0#8, 0#8, 0#8]⟩) true))

/-- SET_THRESHOLD sets 0 to 257 at once, with the offers following and nothing else changed, and answers BAD_ARGUMENT
from 258 on (R67). -/
def Obligations.SetThresholdMovesTheBound : Prop :=
  ∀ (p : Port) (v : Half) (s : State), Ready s p (.setThreshold p v) →
    (v.toNat ≤ 257 → ∃ t, exec (.setThreshold p v) s = .next t ∧
      (t.offer p).threshold = v.toNat ∧ (∀ q, q ≠ p → (t.offer q).threshold = (s.offer q).threshold) ∧
      FlagsFollow s t ∧ KeepsSurroundings s t ∧ KeepsOtherLinks p s t ∧ t.sources = s.sources ∧
      t.claims = s.claims ∧ t.timers = s.timers ∧ t.queues = s.queues ∧
      Answered p .setThreshold .ok (halfBytes v) s t) ∧
    (258 ≤ v.toNat → exec (.setThreshold p v) s = .next (refusedWith s p .setThreshold .badArgument))

/-- The top of a port is the member of its offer set that ranks before every other; it is absent exactly for an empty set
(R73, R64). -/
def Obligations.TopIsTheMostUrgentOffer : Prop :=
  ∀ (p : Port) (s : State),
    (∀ i, s.top p = some i ↔ s.offered p i = true ∧
      ∀ j, j ≠ i → s.offered p j = true →
        s.level i < s.level j ∨ (s.level i = s.level j ∧ defaultPosition i < defaultPosition j)) ∧
    (s.top p = none ↔ ∀ i, s.offered p i = false)

/-- The offer set of R70, condition by condition, with no duplicates; a CLAIMED, QUIET or disabled source is in none. -/
def Obligations.OfferSetConditions : Prop :=
  ∀ (p : Port) (s : State), (s.offerSet p).Nodup ∧ ∀ i : SourceNo, i ∈ s.offerSet p ↔
    (s.source i).enabled = true ∧
    ((s.source i).state = .pending ∨ (s.source i).state = .escalated) ∧
    ((s.source i).responsible = some p ∨ ((s.source i).state = .escalated ∧ (s.source i).fallback = some p)) ∧
    s.level i < (s.offer p).threshold ∧ s.level i < s.runningLevel p

/-- Levels by priority and band, their reported form, the fixed default positions, which are all distinct, and the order of
sources, which has no ties (R63, R65, R2, R64). -/
def Obligations.LevelsAndDefaultPositions : Prop :=
  (∀ (s : State) (i : SourceNo), s.level i = levelOf i (s.source i).priority) ∧
  (∀ (i : SourceNo) (n : Fin 256), n ≠ 0 → levelOf i n = n.val) ∧
  (∀ i : SourceNo, levelOf i 0 = if i.val < 8 ∨ (64 ≤ i.val ∧ i.val < 72) then 0 else 256) ∧
  (reportedLevel 0 = 0#8 ∧ unnumberedMark 0 = true) ∧
  (∀ n, 1 ≤ n → n ≤ 255 → reportedLevel n = BitVec.ofNat 8 n ∧ unnumberedMark n = false) ∧
  (reportedLevel 256 = 255#8 ∧ unnumberedMark 256 = true) ∧
  (∀ i : SourceNo, (i.val < 8 → defaultPosition i = i.val) ∧
    (64 ≤ i.val → i.val < 72 → defaultPosition i = i.val - 56) ∧
    (8 ≤ i.val → i.val < 64 → defaultPosition i = i.val + 8) ∧ (72 ≤ i.val → defaultPosition i = i.val)) ∧
  (∀ i j : SourceNo, defaultPosition i = defaultPosition j → i = j) ∧
  ∀ (s : State) (i j : SourceNo), i ≠ j →
    (s.moreUrgent i j = true ↔ s.moreUrgent j i = false) ∧
    (s.moreUrgent i j = true ↔
      s.level i < s.level j ∨ (s.level i = s.level j ∧ defaultPosition i < defaultPosition j))

/-- The running level is 257 without a HELD entry, and otherwise the smallest level at claim among the HELD entries
(R68). -/
def Obligations.RunningLevelIsTheSmallestHeldLevel : Prop :=
  ∀ (p : Port) (s : State),
    ((∀ e ∈ s.claimList p, e.status = .retracted) → s.runningLevel p = 257) ∧
    ((∃ e ∈ s.claimList p, e.status = .held ∧ e.level ≤ 257) →
      (∃ e ∈ s.claimList p, e.status = .held ∧ e.level = s.runningLevel p) ∧
      ∀ e ∈ s.claimList p, e.status = .held → s.runningLevel p ≤ e.level)

/-! ## Claims -/

/-- CLAIM_TOP claims the sender's top and CLAIM a source of the sender's offer set, where the list has room for it; the
answer is what the claim found (R85, R86, R87, R88). -/
def Obligations.ClaimsAreTaken : Prop :=
  ∀ (p : Port) (i : SourceNo) (s : State),
    ((s.claimList p).filter (fun e => !(e.source == i && e.status == .retracted))).length < 8 →
    (Ready s p (.claimTop p) → s.top p = some i →
      ∃ t, exec (.claimTop p) s = .next t ∧ ClaimTaken p i s t ∧ ChangesOneSource p i s t ∧
        Answered p .claimTop .ok (claimAnswer s i) s t) ∧
    (∀ b : Byte, Ready s p (.claim p b) → b.toNat = i.val → s.offered p i = true →
      ∃ t, exec (.claim p b) s = .next t ∧ ClaimTaken p i s t ∧ ChangesOneSource p i s t ∧
        Answered p .claim .ok (claimAnswer s i) s t)

/-- A claim refused, in the order of its checks, changes nothing but the answer: BAD_ARGUMENT, FULL, TAKEN, NOT_OFFERED for
CLAIM (R86); FULL, NOTHING_OFFERED for CLAIM_TOP (R85). -/
def Obligations.ClaimRefusalsInOrder : Prop :=
  ∀ (p : Port) (b : Byte) (s : State),
    (Ready s p (.claim p b) →
      (96 ≤ b.toNat → exec (.claim p b) s = .next (refusedWith s p .claim .badArgument)) ∧
      ∀ i : SourceNo, b.toNat = i.val →
        (8 ≤ ((s.claimList p).filter (fun e => !(e.source == i && e.status == .retracted))).length →
          exec (.claim p b) s = .next (refusedWith s p .claim .full)) ∧
        (((s.claimList p).filter (fun e => !(e.source == i && e.status == .retracted))).length < 8 →
          ((∃ q, (s.source i).state = .claimed q) →
            exec (.claim p b) s = .next (refusedWith s p .claim .taken)) ∧
          ((¬∃ q, (s.source i).state = .claimed q) → s.offered p i = false →
            exec (.claim p b) s = .next (refusedWith s p .claim .notOffered)))) ∧
    (Ready s p (.claimTop p) →
      (∀ i, s.top p = some i →
        8 ≤ ((s.claimList p).filter (fun e => !(e.source == i && e.status == .retracted))).length →
        exec (.claimTop p) s = .next (refusedWith s p .claimTop .full)) ∧
      (s.top p = none → 8 ≤ (s.claimList p).length →
        exec (.claimTop p) s = .next (refusedWith s p .claimTop .full)) ∧
      (s.top p = none → (s.claimList p).length < 8 →
        exec (.claimTop p) s = .next (refusedWith s p .claimTop .nothingOffered)))

/-- COMPLETE of a HELD entry removes the entry, leaves the source re-pended on its count or on its active line with a WAIT
timer, or QUIET, and answers its state and count (R91, R52). -/
def Obligations.CompleteEndsAHeldClaim : Prop :=
  ∀ (p : Port) (b : Byte) (i : SourceNo) (e : ClaimEntry) (s : State), Ready s p (.complete p b) →
    b.toNat = i.val → (s.claimList p).find? (·.source == i) = some e → e.status = .held →
    ∃ t, exec (.complete p b) s = .next t ∧ ChangesOneSource p i s t ∧
      t.claimList p = (s.claimList p).filter (·.source != i) ∧ (∀ q, q ≠ p → t.claimList q = s.claimList q) ∧
      t.queues = s.queues ∧
      (if (s.source i).enabled = true ∧ 0 < (s.source i).count then
        t.source i = { s.source i with state := .pending } ∧
          t.timer i = timerFrom s.partTime .wait (s.source i).waitLimit
      else if (s.source i).enabled = true ∧ s.lineActive i = true then
        t.source i = { s.source i with state := .pending, count := 1 } ∧
          t.timer i = timerFrom s.partTime .wait (s.source i).waitLimit
      else t.source i = { s.source i with state := .quiet, count := 0 } ∧ t.timer i = none) ∧
      Answered p .complete .ok [b, (t.source i).state.byte, byteOf (t.source i).count] s t

/-- COMPLETE of a RETRACTED entry removes it and answers TOO_LATE without touching the source; without an entry it answers
NOT_CLAIMED; out of range it answers BAD_ARGUMENT (R92, R91). -/
def Obligations.CompleteOfALostOrMissingEntry : Prop :=
  ∀ (p : Port) (b : Byte) (s : State), Ready s p (.complete p b) →
    (96 ≤ b.toNat → exec (.complete p b) s = .next (refusedWith s p .complete .badArgument)) ∧
    ∀ i : SourceNo, b.toNat = i.val →
      (∀ e, (s.claimList p).find? (·.source == i) = some e → e.status = .retracted →
        exec (.complete p b) s = .next
          ((s.setClaimList p ((s.claimList p).filter fun e => !(e.source == i && e.status == .retracted))).answer p
            (some ⟨0x05#8, .tooLate,
              [b, reportedLevel e.level, flagsByte false (unnumberedMark e.level) false false] ++
                timeBytes e.claimedAt⟩) true)) ∧
      ((s.claimList p).find? (·.source == i) = none →
        exec (.complete p b) s = .next (refusedWith s p .complete .notClaimed))

/-- DEFER of a HELD entry gives the claim back: PENDING with the count raised by one and a WAIT timer, or QUIET where the
source is disabled; without a HELD entry it answers NOT_CLAIMED (R95, R49, R50). -/
def Obligations.DeferGivesTheClaimBack : Prop :=
  ∀ (p : Port) (b : Byte) (s : State), Ready s p (.defer p b) →
    (96 ≤ b.toNat → exec (.defer p b) s = .next (refusedWith s p .defer .badArgument)) ∧
    ∀ i : SourceNo, b.toNat = i.val →
      (∀ e, (s.claimList p).find? (·.source == i) = some e → e.status = .held →
        ∃ t, exec (.defer p b) s = .next t ∧ ChangesOneSource p i s t ∧
          t.claimList p = (s.claimList p).filter (·.source != i) ∧ (∀ q, q ≠ p → t.claimList q = s.claimList q) ∧
          (if (s.source i).enabled = true then
            t.source i = { s.source i with state := .pending, count := raisedCount (s.source i).count } ∧
              t.timer i = timerFrom s.partTime .wait (s.source i).waitLimit ∧ SaturationWritten i s.partTime s t
          else t.source i = { s.source i with state := .quiet, count := 0 } ∧ t.timer i = none ∧
            t.queues = s.queues) ∧
          Answered p .defer .ok [b, (t.source i).state.byte, byteOf (t.source i).count] s t) ∧
      ((∀ e, (s.claimList p).find? (·.source == i) = some e → e.status = .retracted) →
        exec (.defer p b) s = .next (refusedWith s p .defer .notClaimed))

/-- LIST_CLAIMS answers table D, READ_SOURCE table E, and both change nothing but the answer (R97, R24). -/
def Obligations.ListClaimsAndReadSourceReport : Prop :=
  ∀ (p : Port) (b : Byte) (s : State),
    (Ready s p (.listClaims p) →
      exec (.listClaims p) s = .next (s.answer p (some ⟨0x07#8, .ok,
        [byteOf (s.claimList p).length, byteOf ((s.claimList p).countP (·.status == .held)),
         byteOf ((s.claimList p).countP (·.status == .retracted))] ++
          (s.claimList p).flatMap (fun e =>
            [byteOf e.source.val, reportedLevel e.level,
             flagsByte false (unnumberedMark e.level) false (e.status == .retracted)] ++ timeBytes e.claimedAt)⟩)
        true)) ∧
    (Ready s p (.readSource p b) →
      (96 ≤ b.toNat → exec (.readSource p b) s = .next (refusedWith s p .readSource .badArgument)) ∧
      ∀ i : SourceNo, b.toNat = i.val →
        exec (.readSource p b) s = .next (s.answer p (some ⟨0x14#8, .ok,
          [b, flagsByte (isPosted i) (isHighBand i) (s.source i).enabled (s.qualifiedLevel i),
           byteOf (defaultPosition i), byteOf (i.val / 12), portByte (s.source i).binder,
           portByte (s.source i).borrower, portByte (s.source i).fallback, (s.source i).posters.setWidth 8,
           (s.source i).trigger.byte, byteOf (s.source i).qualify.val, byteOf (s.source i).priority.val,
           byteOf (s.source i).group.val] ++ halfBytes (s.source i).waitLimit ++
          halfBytes (s.source i).serviceLimit ++
          [(s.source i).state.byte, byteOf (s.source i).count, portByte (s.source i).state.claimant,
           timerKindByte (s.timer i)] ++
          timeBytes (match s.timer i with | some x => x.expiry | none => 0#32)⟩) true))

/-! ## Posting and binding -/

/-- POST of a posted source by one of its posters, with the source enabled, takes one event and answers its state and
count (R56, R48). -/
def Obligations.PostTakesOneEvent : Prop :=
  ∀ (p : Port) (b : Byte) (i : SourceNo) (s : State), Ready s p (.post p b) → b.toNat = i.val → 64 ≤ i.val →
    (s.source i).posters.getLsbD p.val = true → (s.source i).enabled = true →
    ∃ t, exec (.post p b) s = .next t ∧ EventTaken i s t ∧ ChangesOneSource p i s t ∧ t.claims = s.claims ∧
      Answered p .post .ok [b, (t.source i).state.byte, byteOf (t.source i).count] s t

/-- POST and the binding commands refused, in the order of their checks, change nothing but the answer (R56, R28). -/
def Obligations.PostAndBindingRefusalsInOrder : Prop :=
  ∀ (p : Port) (b d : Byte) (s : State),
    (96 ≤ b.toNat →
      (Ready s p (.post p b) → exec (.post p b) s = .next (refusedWith s p .post .badArgument)) ∧
      (Ready s p (.bind p b) → exec (.bind p b) s = .next (refusedWith s p .bind .badArgument)) ∧
      (Ready s p (.unbind p b) → exec (.unbind p b) s = .next (refusedWith s p .unbind .badArgument)) ∧
      (Ready s p (.lend p b d) → exec (.lend p b d) s = .next (refusedWith s p .lend .badArgument)) ∧
      (Ready s p (.recallLoan p b) → exec (.recallLoan p b) s = .next (refusedWith s p .recallLoan .badArgument)) ∧
      (Ready s p (.returnLoan p b) → exec (.returnLoan p b) s = .next (refusedWith s p .returnLoan .badArgument))) ∧
    ∀ i : SourceNo, b.toNat = i.val →
      (Ready s p (.post p b) →
        (i.val < 64 → exec (.post p b) s = .next (refusedWith s p .post .badArgument)) ∧
        (64 ≤ i.val → (s.source i).posters.getLsbD p.val = false →
          exec (.post p b) s = .next (refusedWith s p .post .denied)) ∧
        (64 ≤ i.val → (s.source i).posters.getLsbD p.val = true → (s.source i).enabled = false →
          exec (.post p b) s = .next (refusedWith s p .post .disabled))) ∧
      (Ready s p (.bind p b) → (∃ q, q ≠ p ∧ (s.source i).binder = some q) →
        exec (.bind p b) s = .next (refusedWith s p .bind .inUse)) ∧
      (Ready s p (.unbind p b) →
        ((s.source i).binder ≠ some p → exec (.unbind p b) s = .next (refusedWith s p .unbind .denied)) ∧
        ((s.source i).binder = some p → (∃ q, (s.source i).state = .claimed q) →
          exec (.unbind p b) s = .next (refusedWith s p .unbind .busy))) ∧
      (Ready s p (.lend p b d) →
        (4 ≤ d.toNat → exec (.lend p b d) s = .next (refusedWith s p .lend .badArgument)) ∧
        (d.toNat < 4 → (s.source i).binder ≠ some p →
          exec (.lend p b d) s = .next (refusedWith s p .lend .denied)) ∧
        (d.toNat = p.val → (s.source i).binder = some p →
          exec (.lend p b d) s = .next (refusedWith s p .lend .badArgument)) ∧
        (d.toNat < 4 → d.toNat ≠ p.val → (s.source i).binder = some p → (s.source i).borrower ≠ none →
          exec (.lend p b d) s = .next (refusedWith s p .lend .lent))) ∧
      (Ready s p (.recallLoan p b) →
        ((s.source i).binder ≠ some p → exec (.recallLoan p b) s = .next (refusedWith s p .recallLoan .denied)) ∧
        ((s.source i).binder = some p → (s.source i).borrower = none →
          exec (.recallLoan p b) s = .next (refusedWith s p .recallLoan .notLent))) ∧
      (Ready s p (.returnLoan p b) → (s.source i).borrower ≠ some p →
        exec (.returnLoan p b) s = .next (refusedWith s p .returnLoan .denied))

/-- BIND of an unbound source makes the sender its binder, sets posters to {sender} for a posted source and changes
nothing else; BIND by the binder changes no field (R29, R27). -/
def Obligations.BindBindsAnUnboundSource : Prop :=
  ∀ (p : Port) (b : Byte) (i : SourceNo) (s : State), Ready s p (.bind p b) → b.toNat = i.val →
    ((s.source i).binder = none →
      exec (.bind p b) s = .next
        ((s.setSource i { s.source i with
            binder := some p
            posters := if 64 ≤ i.val then BitVec.ofNat 4 (2 ^ p.val) else (s.source i).posters }).answer p
          (some ⟨0x11#8, .ok,
            [b, byteOf p.val, portByte (s.source i).borrower, (s.source i).state.byte,
             portByte (s.source i).state.claimant]⟩) true)) ∧
    ((s.source i).binder = some p →
      exec (.bind p b) s = .next
        (s.answer p
          (some ⟨0x11#8, .ok,
            [b, byteOf p.val, portByte (s.source i).borrower, (s.source i).state.byte,
             portByte (s.source i).state.claimant]⟩) true))

/-- UNBIND by the binder of a source that is not CLAIMED returns the record to its default values, stops its timer, writes
no incident and touches no claim list (R30, R31, R5). The qualify field's return to 0 brings the qualified level of the
source's line up to date where a span is in progress, and touches no other line (R44, R14); that reports of that line not yet taken
are taken with it is the model's choice (log 11). -/
def Obligations.UnbindReturnsTheDefaultRecord : Prop :=
  ∀ (p : Port) (b : Byte) (i : SourceNo) (s : State), Ready s p (.unbind p b) → b.toNat = i.val →
    (s.source i).binder = some p → (¬∃ q, (s.source i).state = .claimed q) →
    ∃ t, exec (.unbind p b) s = .next t ∧ ChangesOneSource p i { s with lines := t.lines } t ∧
      t.source i = SourceRec.default ∧ t.timer i = none ∧ t.claims = s.claims ∧ t.queues = s.queues ∧
      Answered p .unbind .ok [b, 4#8, 4#8, 0#8, 4#8] s t ∧
      ∀ n, t.line n =
        if sourceOf n = i ∧ (s.source i).qualify ≠ 0 ∧ (s.line n).span ≠ none then
          { s.line n with qualified := (s.line n).raw, span := none, reports := [] }
        else s.line n

/-- LEND, RECALL and RETURN taken set the borrower and touch no timer, count or claim; the offers follow; RETURN alone
writes an incident, LOAN_ENDED of cause RETURN to the binder (R33, R36, R37). -/
def Obligations.LendingMovesTheBorrower : Prop :=
  ∀ (p : Port) (b d : Byte) (i : SourceNo) (s : State), b.toNat = i.val →
    (∀ q : Port, Ready s p (.lend p b d) → d.toNat = q.val → (s.source i).binder = some p → q ≠ p →
      (s.source i).borrower = none →
      ∃ t, exec (.lend p b d) s = .next t ∧ ChangesOneSource p i s t ∧
        t.source i = { s.source i with borrower := some q } ∧ t.timers = s.timers ∧ t.claims = s.claims ∧
        t.queues = s.queues ∧
        Answered p .lend .ok [b, byteOf p.val, d, (s.source i).state.byte, portByte (s.source i).state.claimant] s t) ∧
    (Ready s p (.recallLoan p b) → (s.source i).binder = some p → (s.source i).borrower ≠ none →
      ∃ t, exec (.recallLoan p b) s = .next t ∧ ChangesOneSource p i s t ∧
        t.source i = { s.source i with borrower := none } ∧ t.timers = s.timers ∧ t.claims = s.claims ∧
        t.queues = s.queues ∧
        Answered p .recallLoan .ok [b, byteOf p.val, 4#8, (s.source i).state.byte,
          portByte (s.source i).state.claimant] s t) ∧
    (∀ q : Port, Ready s p (.returnLoan p b) → (s.source i).borrower = some p → (s.source i).binder = some q →
      ∃ t, exec (.returnLoan p b) s = .next t ∧ ChangesOneSource p i s t ∧
        t.source i = { s.source i with borrower := none } ∧ t.timers = s.timers ∧ t.claims = s.claims ∧
        (∀ r, t.queue r =
          if r = q then (s.queue r).push ⟨.loanEnded, i, some p, 1#8, s.partTime⟩ else s.queue r) ∧
        Answered p .returnLoan .ok [b, byteOf q.val, 4#8, (s.source i).state.byte,
          portByte (s.source i).state.claimant] s t)

/-! ## Configuration -/

/-- CONFIGURE of GROUP, WAIT_LIMIT, SERVICE_LIMIT, POSTERS and TRIGGER taken from the binder writes the one field and
changes nothing else: a running timer keeps its expiry time (R13, R14, R15, R16, R106). -/
def Obligations.ConfigureWritesOneField : Prop :=
  ∀ (p : Port) (b : Byte) (v : Half) (i : SourceNo) (s : State), b.toNat = i.val → (s.source i).binder = some p →
    (∀ g : Fin 8, Ready s p (.configureGroup p b v) → v.toNat = g.val →
      exec (.configureGroup p b v) s = .next ((s.setSource i { s.source i with group := g }).answer p
        (some ⟨0x13#8, .ok, b :: 2#8 :: halfBytes v⟩) true)) ∧
    (Ready s p (.configureWaitLimit p b v) →
      exec (.configureWaitLimit p b v) s = .next ((s.setSource i { s.source i with waitLimit := v }).answer p
        (some ⟨0x13#8, .ok, b :: 5#8 :: halfBytes v⟩) true)) ∧
    (Ready s p (.configureServiceLimit p b v) →
      exec (.configureServiceLimit p b v) s = .next ((s.setSource i { s.source i with serviceLimit := v }).answer p
        (some ⟨0x13#8, .ok, b :: 6#8 :: halfBytes v⟩) true)) ∧
    (Ready s p (.configurePosters p b v) → 64 ≤ i.val → v.toNat < 16 →
      exec (.configurePosters p b v) s = .next
        ((s.setSource i { s.source i with posters := BitVec.ofNat 4 v.toNat }).answer p
          (some ⟨0x13#8, .ok, b :: 8#8 :: halfBytes v⟩) true)) ∧
    (∀ k : Trigger, Ready s p (.configureTrigger p b v) → i.val < 64 → v.toNat = k.byte.toNat →
      (s.source i).enabled = false → (¬∃ q, (s.source i).state = .claimed q) →
      exec (.configureTrigger p b v) s = .next ((s.setSource i { s.source i with trigger := k }).answer p
        (some ⟨0x13#8, .ok, b :: 3#8 :: halfBytes v⟩) true))

/-- CONFIGURE of PRIORITY and FALLBACK taken from the binder writes the field, keeps every claim entry, timer and queue,
and the offers follow at once (R12, R16). -/
def Obligations.ConfigurePriorityAndFallbackFollow : Prop :=
  ∀ (p : Port) (b : Byte) (v : Half) (i : SourceNo) (s : State), b.toNat = i.val → (s.source i).binder = some p →
    (∀ n : Fin 256, Ready s p (.configurePriority p b v) → v.toNat = n.val →
      ∃ t, exec (.configurePriority p b v) s = .next t ∧ ChangesOneSource p i s t ∧
        t.source i = { s.source i with priority := n } ∧ t.claims = s.claims ∧ t.timers = s.timers ∧
        t.queues = s.queues ∧ Answered p .configure .ok (b :: 1#8 :: halfBytes v) s t) ∧
    (∀ f : Option Port, Ready s p (.configureFallback p b v) →
      (f = none ∧ v.toNat = 4 ∨ ∃ q, f = some q ∧ v.toNat = q.val) →
      ∃ t, exec (.configureFallback p b v) s = .next t ∧ ChangesOneSource p i s t ∧
        t.source i = { s.source i with fallback := f } ∧ t.claims = s.claims ∧ t.timers = s.timers ∧
        t.queues = s.queues ∧ Answered p .configure .ok (b :: 7#8 :: halfBytes v) s t)

/-- CONFIGURE QUALIFY taken writes the field of a disabled wired source; a new value that the span in progress has already
reached brings the qualified level up to date at once, and any other span goes on (R14). What becomes of untaken reports
then is log 11. -/
def Obligations.ConfigureQualifyGovernsTheSpan : Prop :=
  ∀ (p : Port) (b : Byte) (v : Half) (n : LineNo) (k : Fin 16) (s : State), b.toNat = n.val → v.toNat = k.val →
    Ready s p (.configureQualify p b v) → (s.source (sourceOf n)).binder = some p →
    (s.source (sourceOf n)).enabled = false →
    ∃ t, exec (.configureQualify p b v) s = .next t ∧
      t = ((s.setSource (sourceOf n) { s.source (sourceOf n) with qualify := k }).setLine n (t.line n)).answer p
        (some ⟨0x13#8, .ok, b :: 4#8 :: halfBytes v⟩) true ∧
      (k = (s.source (sourceOf n)).qualify → t.line n = s.line n) ∧
      (k ≠ (s.source (sourceOf n)).qualify →
        ((s.line n).span = none → t.line n = s.line n) ∧
        ∀ start, (s.line n).span = some start →
          (s.samplerTime - start < k.val → t.line n = s.line n) ∧
          (k.val ≤ s.samplerTime - start →
            t.line n = { s.line n with qualified := (s.line n).raw, span := none, reports := (t.line n).reports }))

/-- CONFIGURE refused, in the order of its checks, changes nothing but the answer: BAD_ARGUMENT for the source, the value
or the kind, then DENIED, then BUSY (R9, R10, R11). -/
def Obligations.ConfigureRefusalsInOrder : Prop :=
  ∀ (p : Port) (b : Byte) (v : Half) (i : SourceNo) (c : Instr) (s : State), Ready s p c →
    (96 ≤ b.toNat →
      (c = .configurePriority p b v ∨ c = .configureGroup p b v ∨ c = .configureTrigger p b v ∨
        c = .configureQualify p b v ∨ c = .configureWaitLimit p b v ∨ c = .configureServiceLimit p b v ∨
        c = .configureFallback p b v ∨ c = .configurePosters p b v) →
      exec c s = .next (refusedWith s p .configure .badArgument)) ∧
    (b.toNat = i.val →
      ((c = .configurePriority p b v ∧ 256 ≤ v.toNat ∨ c = .configureGroup p b v ∧ 8 ≤ v.toNat ∨
        c = .configureTrigger p b v ∧ (64 ≤ i.val ∨ 5 ≤ v.toNat) ∨
        c = .configureQualify p b v ∧ (64 ≤ i.val ∨ 16 ≤ v.toNat) ∨
        c = .configureFallback p b v ∧ 5 ≤ v.toNat ∨
        c = .configurePosters p b v ∧ (i.val < 64 ∨ 16 ≤ v.toNat)) →
        exec c s = .next (refusedWith s p .configure .badArgument)) ∧
      ((s.source i).binder ≠ some p →
        (c = .configurePriority p b v ∧ v.toNat < 256 ∨ c = .configureGroup p b v ∧ v.toNat < 8 ∨
          c = .configureTrigger p b v ∧ i.val < 64 ∧ v.toNat < 5 ∨
          c = .configureQualify p b v ∧ i.val < 64 ∧ v.toNat < 16 ∨
          c = .configureWaitLimit p b v ∨ c = .configureServiceLimit p b v ∨
          c = .configureFallback p b v ∧ v.toNat < 5 ∨
          c = .configurePosters p b v ∧ 64 ≤ i.val ∧ v.toNat < 16) →
        exec c s = .next (refusedWith s p .configure .denied)) ∧
      ((s.source i).binder = some p → i.val < 64 →
        (c = .configureTrigger p b v ∧ v.toNat < 5 ∧
            ((s.source i).enabled = true ∨ ∃ q, (s.source i).state = .claimed q) ∨
          c = .configureQualify p b v ∧ v.toNat < 16 ∧ (s.source i).enabled = true) →
        exec c s = .next (refusedWith s p .configure .busy)))

/-- ENABLE by the binder enables the source; a QUIET level source whose line is active takes one event, no other does; an
enabled source is left as it is; any other port is DENIED, and a source byte from 96 on is BAD_ARGUMENT (R17, R18, R9). -/
def Obligations.EnableMayTakeOneEvent : Prop :=
  ∀ (p : Port) (b : Byte) (s : State), Ready s p (.enable p b) →
    (96 ≤ b.toNat → exec (.enable p b) s = .next (refusedWith s p .enable .badArgument)) ∧
    ∀ i : SourceNo, b.toNat = i.val →
    ((s.source i).binder ≠ some p → exec (.enable p b) s = .next (refusedWith s p .enable .denied)) ∧
    ((s.source i).binder = some p → (s.source i).enabled = true →
      exec (.enable p b) s = .next (s.answer p
        (some ⟨0x15#8, .ok, [b, 1#8, (s.source i).state.byte, byteOf (s.source i).count]⟩) true)) ∧
    ((s.source i).binder = some p → (s.source i).enabled = false →
      ∃ t, exec (.enable p b) s = .next t ∧ ChangesOneSource p i s t ∧ t.claims = s.claims ∧ t.queues = s.queues ∧
        (if (s.source i).state = .quiet ∧ (∃ n, lineOf i = some n ∧
            ((s.source i).trigger = .high ∧ (s.line n).qualified = true ∨
              (s.source i).trigger = .low ∧ (s.line n).qualified = false)) then
          t.source i = { s.source i with enabled := true, state := .pending, count := 1 } ∧
            t.timer i = timerFrom s.partTime .wait (s.source i).waitLimit
        else t.source i = { s.source i with enabled := true } ∧ t.timer i = s.timer i) ∧
        Answered p .enable .ok [b, 1#8, (t.source i).state.byte, byteOf (t.source i).count] s t)

/-- DISABLE by the binder: a PENDING or ESCALATED event is withdrawn with one WITHDRAWN incident of the count dropped, a
claim is left in place, a QUIET source is disabled, a disabled one is left as it is; any other port is DENIED, and a source
byte from 96 on is BAD_ARGUMENT (R20, R21, R22, R9). -/
def Obligations.DisableByState : Prop :=
  ∀ (p : Port) (b : Byte) (s : State), Ready s p (.disable p b) →
    (96 ≤ b.toNat → exec (.disable p b) s = .next (refusedWith s p .disable .badArgument)) ∧
    ∀ i : SourceNo, b.toNat = i.val →
    ((s.source i).binder ≠ some p → exec (.disable p b) s = .next (refusedWith s p .disable .denied)) ∧
    ((s.source i).binder = some p → (s.source i).enabled = false →
      exec (.disable p b) s = .next (s.answer p
        (some ⟨0x16#8, .ok, [b, 0#8, (s.source i).state.byte, byteOf (s.source i).count]⟩) true)) ∧
    ((s.source i).binder = some p → (s.source i).enabled = true →
      ((s.source i).state = .quiet →
        exec (.disable p b) s = .next
          ((s.setSource i { s.source i with enabled := false, count := 0 }).answer p
            (some ⟨0x16#8, .ok, [b, 0#8, 0#8, 0#8]⟩) true)) ∧
      (∀ q, (s.source i).state = .claimed q →
        exec (.disable p b) s = .next
          ((s.setSource i { s.source i with enabled := false }).answer p
            (some ⟨0x16#8, .ok, [b, 0#8, 3#8, byteOf (s.source i).count]⟩) true)) ∧
      ((s.source i).state = .pending ∨ (s.source i).state = .escalated →
        ∃ t, exec (.disable p b) s = .next t ∧ ChangesOneSource p i s t ∧ t.claims = s.claims ∧
          t.source i = { s.source i with enabled := false, state := .quiet, count := 0 } ∧ t.timer i = none ∧
          (∀ q, t.queue q =
            if q = p then
              (s.queue q).push ⟨.withdrawn, i, none, BitVec.ofNat 8 (s.source i).count, s.partTime⟩
            else s.queue q) ∧
          Answered p .disable .ok [b, 0#8, 0#8, 0#8] s t))

/-! ## Incidents and port clear -/

/-- READ_INCIDENT removes and answers the oldest record of the sender's queue, clears the flag where the queue empties, and
answers EMPTY for an empty queue; nothing else changes (R128, R129). -/
def Obligations.ReadIncidentRemovesTheOldest : Prop :=
  ∀ (p : Port) (s : State), Ready s p (.readIncident p) →
    (∀ r rest, (s.queue p).records = r :: rest →
      exec (.readIncident p) s = .next
        ((s.setQueue p ⟨rest, if rest = [] then false else (s.queue p).overflow⟩).answer p
          (some ⟨0x20#8, .ok,
            [r.kind.byte, byteOf r.source.val, portByte r.port, r.detail] ++ timeBytes r.time ++
              [flagsByte (s.queue p).overflow false false false, byteOf rest.length]⟩) true)) ∧
    ((s.queue p).records = [] →
      exec (.readIncident p) s = .next
        (s.answer p (some ⟨0x20#8, .empty, [flagsByte (s.queue p).overflow false false false, 0#8]⟩) true))

/-- Writing an incident: appended where the queue holds fewer than 8 records, lost with the flag set otherwise; it goes to
the binder of the source and to no other queue (R124, R125). -/
def Obligations.IncidentsGoToTheBinder : Prop :=
  ∀ (s : State) (k : IncidentKind) (i : SourceNo) (o : Option Port) (d : Byte) (n : Time) (b : Port),
    (s.source i).binder = some b →
    (∀ q, q ≠ b → (s.writeIncident k i o d n).queue q = s.queue q) ∧
    ((s.queue b).records.length < 8 →
      (s.writeIncident k i o d n).queue b = ⟨(s.queue b).records ++ [⟨k, i, o, d, n⟩], (s.queue b).overflow⟩) ∧
    ((s.queue b).records.length = 8 → (s.writeIncident k i o d n).queue b = ⟨(s.queue b).records, true⟩)

/-- The first two parts of a port clear of `p`: its queue is emptied and PORT_CLEAR stays in hand; then its threshold is
257, its last-reported top absent, its flag clear, and its attention line follows its offer set. No other port's state
changes (R132, R147, R80). That the flag ends clear is log 13. -/
def Obligations.PortClearFirstParts : Prop :=
  ∀ (p : Port) (s : State),
    (Ready s p (.portClear p) → ∃ t, exec (.portClear p) s = .next t ∧
      t = (s.setQueue p ⟨[], false⟩).setLink p (t.link p) ∧
      (t.link p).clearing = .offerUnitNext ∧
      (∃ h, (t.link p).inHand = some h ∧ h.row = some (.portClear p) ∧
        ((s.link p).inHand = none ∨ (s.link p).inHand = some h)) ∧
      t.link p = { s.link p with clearing := .offerUnitNext, inHand := (t.link p).inHand }) ∧
    (s.inHold = false → (s.link p).clearing = .offerUnitNext →
      ∃ t, exec (.portClearOfferUnitPart p) s = .next t ∧
        t = (s.setOffer p (t.offer p)).setLink p { s.link p with clearing := .sourceTableNext } ∧
        (t.offer p).threshold = 257 ∧ (t.offer p).lastReported = none ∧ (t.offer p).changed = false ∧
        ((t.offer p).attention = true ↔ ∃ i, t.top p = some i))

/-- The Source Table's part of a port clear of `p`, in a state whose claim lists and records agree: every claim of `p` is
given back with one added to its count, or ends QUIET where the source is disabled; `p`'s list is empty and its loans are
ended; each binder gets its incidents in the order of R126; the answer gives the three numbers; the offers follow as a whole
(R98, R40, R99, R41). -/
def Obligations.PortClearReturnsClaimsAndEndsLoans : Prop :=
  ∀ (p : Port) (s : State), s.inHold = false → (s.link p).clearing = .sourceTableNext → s.ClaimsSound →
    ∃ t, exec (.portClearSourceTablePart p) s = .next t ∧ KeepsSurroundings s t ∧ KeepsOtherLinks p s t ∧
      OffersFollow s t ∧ t.claimList p = [] ∧ (∀ q, q ≠ p → t.claimList q = s.claimList q) ∧
      (∀ i, t.source i =
        { s.source i with
          borrower := if (s.source i).borrower = some p then none else (s.source i).borrower
          state :=
            if (s.source i).state = .claimed p then (if (s.source i).enabled then .pending else .quiet)
            else (s.source i).state
          count :=
            if (s.source i).state = .claimed p then
              (if (s.source i).enabled then raisedCount (s.source i).count else 0)
            else (s.source i).count }) ∧
      (∀ i, t.timer i =
        if (s.source i).state = .claimed p then
          (if (s.source i).enabled then timerFrom s.partTime .wait (s.source i).waitLimit else none)
        else s.timer i) ∧
      (∀ q, t.queue q = (clearIncidents s p q).foldl IncidentQueue.push (s.queue q)) ∧
      t.link p = ({ s.link p with clearing := .idle } : Link).finish s.power
        (some ⟨0x21#8, .ok,
          [byteOf ((s.claimList p).countP (·.status == .held)), byteOf ((s.claimList p).countP (·.status == .retracted)),
           byteOf ((List.finRange 96).countP fun i => (s.source i).borrower == some p)]⟩) true

/-! ## Settings and power -/

/-- The settings page: READ_SETTING answers the field, a WRITE_SETTING taken writes the one field and answers the value in
force, and the refusals BAD_ARGUMENT, DENIED, READ_ONLY come in that order (R167, R168, R152). -/
def Obligations.SettingsAreReadAndWritten : Prop :=
  ∀ (p : Port) (b : Byte) (v : Half) (s : State),
    (Ready s p (.readSetting p b) →
      (b = 0#8 → exec (.readSetting p b) s = .next
        (s.answer p (some ⟨0x30#8, .ok, [0#8, 0#8, s.settings.controlSet.setWidth 8]⟩) true)) ∧
      (b = 1#8 → exec (.readSetting p b) s = .next
        (s.answer p (some ⟨0x30#8, .ok, [1#8, 0#8, s.settings.groupMask]⟩) true)) ∧
      (b = 2#8 → exec (.readSetting p b) s = .next
        (s.answer p (some ⟨0x30#8, .ok, [2#8, 0#8, s.settings.segmentMask]⟩) true)) ∧
      (b = 3#8 → exec (.readSetting p b) s = .next
        (s.answer p (some ⟨0x30#8, .ok, 3#8 :: s.settings.lastResetCause.bytes⟩) true)) ∧
      (4 ≤ b.toNat → exec (.readSetting p b) s = .next (refusedWith s p .readSetting .badArgument))) ∧
    (Ready s p (.writeSettingControlSet p v) →
      (v.toNat = 0 ∨ 16 ≤ v.toNat →
        exec (.writeSettingControlSet p v) s = .next (refusedWith s p .writeSetting .badArgument)) ∧
      (1 ≤ v.toNat → v.toNat < 16 → s.settings.controlSet.getLsbD p.val = false →
        exec (.writeSettingControlSet p v) s = .next (refusedWith s p .writeSetting .denied)) ∧
      (1 ≤ v.toNat → v.toNat < 16 → s.settings.controlSet.getLsbD p.val = true →
        exec (.writeSettingControlSet p v) s = .next
          (({ s with settings := { s.settings with controlSet := v.setWidth 4 } } : State).answer p
            (some ⟨0x31#8, .ok, 0#8 :: halfBytes v⟩) true))) ∧
    (Ready s p (.writeSettingWatchHoldGroupMask p v) →
      (256 ≤ v.toNat →
        exec (.writeSettingWatchHoldGroupMask p v) s = .next (refusedWith s p .writeSetting .badArgument)) ∧
      (v.toNat < 256 → s.settings.controlSet.getLsbD p.val = false →
        exec (.writeSettingWatchHoldGroupMask p v) s = .next (refusedWith s p .writeSetting .denied)) ∧
      (v.toNat < 256 → s.settings.controlSet.getLsbD p.val = true →
        exec (.writeSettingWatchHoldGroupMask p v) s = .next
          (({ s with settings := { s.settings with groupMask := v.setWidth 8 } } : State).answer p
            (some ⟨0x31#8, .ok, 1#8 :: halfBytes v⟩) true))) ∧
    (Ready s p (.writeSettingWatchHoldSegmentMask p v) →
      (256 ≤ v.toNat →
        exec (.writeSettingWatchHoldSegmentMask p v) s = .next (refusedWith s p .writeSetting .badArgument)) ∧
      (v.toNat < 256 → s.settings.controlSet.getLsbD p.val = false →
        exec (.writeSettingWatchHoldSegmentMask p v) s = .next (refusedWith s p .writeSetting .denied)) ∧
      (v.toNat < 256 → s.settings.controlSet.getLsbD p.val = true →
        exec (.writeSettingWatchHoldSegmentMask p v) s = .next
          (({ s with settings := { s.settings with segmentMask := v.setWidth 8 } } : State).answer p
            (some ⟨0x31#8, .ok, 2#8 :: halfBytes v⟩) true))) ∧
    (Ready s p (.writeSettingLastResetCause p v) →
      (256 ≤ v.toNat →
        exec (.writeSettingLastResetCause p v) s = .next (refusedWith s p .writeSetting .badArgument)) ∧
      (v.toNat < 256 → s.settings.controlSet.getLsbD p.val = false →
        exec (.writeSettingLastResetCause p v) s = .next (refusedWith s p .writeSetting .denied)) ∧
      (v.toNat < 256 → s.settings.controlSet.getLsbD p.val = true →
        exec (.writeSettingLastResetCause p v) s = .next (refusedWith s p .writeSetting .readOnly)))

/-- WATCH: DENIED outside the control set, then BUSY while a HELD entry or a port clear stands; otherwise the part enters
WATCH, every unwatched line is frozen with its span and untaken reports dropped, and every record, list, offer, queue and part
time is kept, with every timer and its expiry time; an expiry that part time has reached stands delivered (R160, R55, R59,
R105). -/
def Obligations.WatchFreezesTheUnwatchedLines : Prop :=
  ∀ (p : Port) (s : State), Ready s p (.watch p) →
    (s.settings.controlSet.getLsbD p.val = false →
      exec (.watch p) s = .next (refusedWith s p .watch .denied)) ∧
    (s.settings.controlSet.getLsbD p.val = true →
      ((∃ q, ∃ e ∈ s.claimList q, e.status = .held) ∨ (∃ q, (s.link q).clearing ≠ .idle) →
        exec (.watch p) s = .next (refusedWith s p .watch .busy)) ∧
      ((∀ q, ∀ e ∈ s.claimList q, e.status = .retracted) → (∀ q, (s.link q).clearing = .idle) →
        ∃ t, exec (.watch p) s = .next t ∧
          t = { s with power := .watch, timers := t.timers, lines := t.lines, links := t.links } ∧
          KeepsOtherLinks p s t ∧
          (∀ i, s.timer i = none → t.timer i = none) ∧
          (∀ i x, s.timer i = some x →
            (x.expiry = s.partTime → t.timer i = some { x with delivered := true }) ∧
            (x.delivered = true → t.timer i = some x) ∧
            (1 ≤ (x.expiry - s.partTime).toNat → (x.expiry - s.partTime).toNat ≤ 65535 → t.timer i = some x)) ∧
          t.link p = (s.link p).finish .watch (some ⟨0x32#8, .ok, []⟩) true ∧
          ∀ n, t.line n =
            if (s.source (sourceOf n)).enabled = true ∧
                s.settings.groupMask.getLsbD (s.source (sourceOf n)).group.val = false ∧
                s.settings.segmentMask.getLsbD (n.val / 12) = false then s.line n
            else { s.line n with span := none, reports := [] }))

/-- DORMANT: the same checks as WATCH; taken, it clears every block with the settings page but the last reset cause, empties
every repeat store, cuts every other port's transaction and enters DORMANT; the sender's own Link Interface holds nothing more
and answers OK where its transaction is open (R164, R153, R134, R142, R145). -/
def Obligations.DormantClearsThePart : Prop :=
  ∀ (p : Port) (s : State), Ready s p (.dormant p) →
    (s.settings.controlSet.getLsbD p.val = false →
      exec (.dormant p) s = .next (refusedWith s p .dormant .denied)) ∧
    (s.settings.controlSet.getLsbD p.val = true →
      ((∃ q, ∃ e ∈ s.claimList q, e.status = .held) ∨ (∃ q, (s.link q).clearing ≠ .idle) →
        exec (.dormant p) s = .next (refusedWith s p .dormant .busy)) ∧
      ((∀ q, ∀ e ∈ s.claimList q, e.status = .retracted) → (∀ q, (s.link q).clearing = .idle) →
        ∃ t, exec (.dormant p) s = .next t ∧
          t = { State.reset with
                  lines := t.lines, links := t.links, power := .dormant,
                  settings := { State.reset.settings with lastResetCause := s.settings.lastResetCause },
                  resetnLow := s.resetnLow, supplyReady := s.supplyReady, hold := s.hold, pending := s.pending } ∧
          (∀ n, t.line n = { Line.default with pin := (s.line n).pin }) ∧
          (∀ q, q ≠ p → t.link q = (s.link q).cut) ∧ IssuerAnswered p .dormant none s t))

/-- WAKE: no effect in ACTIVE and WAKING, WAKING from WATCH, a full reset of cause DORMANT_EXIT from DORMANT with every
repeat store empty, every other transaction cut and the OK sent where the sender's transaction is open, refused NOT_READY in
INIT and FAILED (R165, R162, R60, R134, R142, R145). -/
def Obligations.WakeByPowerState : Prop :=
  ∀ (p : Port) (s : State), s.handsOn p (.wake p) = true →
    (s.power = .active ∨ s.power = .waking →
      exec (.wake p) s = .next (s.answer p (some ⟨0x34#8, .ok, []⟩) true)) ∧
    (s.power = .init ∨ s.power = .failed →
      exec (.wake p) s = .next (s.answer p (some ⟨0x34#8, .notReady, []⟩) false)) ∧
    (s.power = .watch → ∃ t, exec (.wake p) s = .next t ∧
      t = { s with power := .waking, wakingSince := s.partTime, lines := t.lines, links := t.links } ∧
      KeepsOtherLinks p s t ∧ t.link p = (s.link p).finish .waking (some ⟨0x34#8, .ok, []⟩) true ∧
      ∀ n, (s.watched n = true → t.line n = s.line n) ∧
        (s.watched n = false → (s.line n).pin = (s.line n).qualified →
          t.line n = { s.line n with raw := (s.line n).pin, span := none }) ∧
        (s.watched n = false → (s.line n).pin ≠ (s.line n).qualified →
          (s.source (sourceOf n)).qualify ≠ 0 →
          t.line n = { s.line n with raw := (s.line n).pin, span := some s.samplerTime }) ∧
        (s.watched n = false → (s.line n).pin ≠ (s.line n).qualified →
          (s.source (sourceOf n)).qualify = 0 →
          t.line n = { s.line n with
            raw := (s.line n).pin, span := none
            reports := (s.line n).reports ++ [if (s.line n).pin then .rise else .fall] })) ∧
    (s.power = .dormant → ∃ t, exec (.wake p) s = .next t ∧
      t = { State.reset with
              lines := t.lines, links := t.links
              settings := { State.reset.settings with lastResetCause := .dormantExit }
              resetnLow := s.resetnLow, supplyReady := s.supplyReady, hold := s.hold, pending := s.pending } ∧
      (∀ n, t.line n = { Line.default with pin := (s.line n).pin }) ∧
      (∀ q, q ≠ p → t.link q = (s.link q).cut) ∧ IssuerAnswered p .wake none s t)

/-- RESET from a member of the control set, in ACTIVE, WATCH, WAKING and FAILED: every block at its reset value, the
writable settings kept, cause COMMAND with the sender, INIT; the sender's repeat store holds 3Fh with OK, every other one is
empty; every other transaction is cut, and the OK is sent where the sender's is open; any other sender is DENIED (R158, R153,
R134, R142, R145). -/
def Obligations.ResetIsASoftReset : Prop :=
  ∀ (p : Port) (s : State), s.handsOn p (.reset p) = true →
    s.power = .active ∨ s.power = .watch ∨ s.power = .waking ∨ s.power = .failed →
    (s.settings.controlSet.getLsbD p.val = false →
      exec (.reset p) s = .next (refusedWith s p .reset .denied)) ∧
    (s.settings.controlSet.getLsbD p.val = true → ∃ t, exec (.reset p) s = .next t ∧
      t = { State.reset with
              lines := t.lines, links := t.links
              settings := { s.settings with lastResetCause := .command p }
              resetnLow := s.resetnLow, supplyReady := s.supplyReady, hold := s.hold, pending := s.pending } ∧
      (∀ n, t.line n = { Line.default with pin := (s.line n).pin }) ∧
      (∀ q, q ≠ p → t.link q = (s.link q).cut) ∧ IssuerAnswered p .reset (some ⟨0x3F#8, .ok, []⟩) s t)

/-! ## The serial ports -/

/-- The edges of a transaction: the fall of chip-select begins RECEIVING outside a hold and DRAINING during one, and a command
still held keeps no open transaction; the end of the answer's check byte drains; the rise of chip-select ends the transaction
and leaves the command in hand and the repeat store. What a port drives on SDO by its transaction state, and nothing during a
hold (R133, R134, R140, R141, R142). -/
def Obligations.TransactionEdges : Prop :=
  ∀ (p : Port) (s : State),
    ((s.link p).transaction = .deselected → ∃ t, exec (.chipSelectFall p) s = .next t ∧
      t = s.setLink p (t.link p) ∧ (t.link p).transaction = (if s.inHold then .draining else .receiving) ∧
      (t.link p).repeatStore = (s.link p).repeatStore ∧ (t.link p).clearing = (s.link p).clearing ∧
      (∀ h, (t.link p).inHand = some h → h.isOpen = false) ∧ (∀ h, (t.link p).waiting = some h → h.isOpen = false) ∧
      (t.link p).inHand.map (·.row) = (s.link p).inHand.map (·.row) ∧
      (t.link p).waiting.map (·.row) = (s.link p).waiting.map (·.row)) ∧
    ((s.link p).transaction = .answering →
      exec (.answerFrameSent p) s = .next (s.setLink p { s.link p with transaction := .draining })) ∧
    ((s.link p).transaction ≠ .deselected → ∃ t, exec (.chipSelectRise p) s = .next t ∧
      t = s.setLink p (t.link p) ∧ (t.link p).transaction = .deselected ∧
      (t.link p).repeatStore = (s.link p).repeatStore ∧ (t.link p).clearing = (s.link p).clearing ∧
      (∀ h, (t.link p).inHand = some h → h.isOpen = false) ∧ (∀ h, (t.link p).waiting = some h → h.isOpen = false) ∧
      (t.link p).inHand.map (·.row) = (s.link p).inHand.map (·.row) ∧
      (t.link p).waiting.map (·.row) = (s.link p).waiting.map (·.row)) ∧
    (s.inHold = true → s.sdo p = .nothing) ∧
    (s.inHold = false →
      ((s.link p).transaction = .deselected → s.sdo p = .nothing) ∧
      ((s.link p).transaction = .receiving ∨ (s.link p).transaction = .processing ∨
        (s.link p).transaction = .draining → s.sdo p = .fill) ∧
      ∀ a, (s.link p).transaction = .answering → (s.link p).answerFrame = some a → s.sdo p = .answer a.wire)

/-- A command frame that completes while its port is RECEIVING, outside DORMANT: BAD_CHECK, then UNKNOWN, then
BAD_ARGUMENT for its length, then NOT_READY or ASLEEP, each answered at once and not kept; otherwise the command becomes the
command in hand, or waits behind one, or is discarded behind a waiting one. A CONFIGURE or WRITE_SETTING whose identifier
names no field goes the same way, and in hand it is answered BAD_ARGUMENT as its owner's answer, which is kept; that this
comes at once is the model's choice (log 6). Bytes that are no whole frame, and bytes outside RECEIVING, change nothing (R134,
R135, R137, R138, R139, R144, R10, R168). -/
def Obligations.FrameCompletionIsJudged : Prop :=
  (∀ (p : Port) (bytes : List Byte) (s : State), (s.link p).transaction ≠ .receiving ∨ parseFrame bytes = none →
    exec (.frameComplete p bytes) s = .next s) ∧
  ∀ (p : Port) (bytes : List Byte) (f : Frame) (s : State), (s.link p).transaction = .receiving →
    parseFrame bytes = some f → s.power ≠ .dormant →
    (f.checkRight = false →
      exec (.frameComplete p bytes) s = .next (s.setLink p { s.link p with
        transaction := .answering, answerFrame := some ⟨f.code, .badCheck, []⟩ })) ∧
    (f.checkRight = true → HostCode.ofByte f.code = none →
      exec (.frameComplete p bytes) s = .next (s.setLink p { s.link p with
        transaction := .answering, answerFrame := some ⟨f.code, .unknown, []⟩ })) ∧
    ∀ code, f.checkRight = true → HostCode.ofByte f.code = some code →
      (f.args.length ≠ code.argLength →
        exec (.frameComplete p bytes) s = .next (s.setLink p { s.link p with
          transaction := .answering, answerFrame := some ⟨f.code, .badArgument, []⟩ })) ∧
      (f.args.length = code.argLength → s.power.passes code = false →
        exec (.frameComplete p bytes) s = .next (s.setLink p { s.link p with
          transaction := .answering
          answerFrame := some ⟨f.code, if s.power = .watch then .asleep else .notReady, []⟩ })) ∧
      ∀ row : Option Instr, s.power.passes code = true →
        (∃ c, decodeCommand p code f.args = .row c ∧ row = some c) ∨
          (decodeCommand p code f.args = .unknownIdentifier ∧ row = none) →
        ((s.link p).inHand = none →
          exec (.frameComplete p bytes) s = .next (s.setLink p
            (if row = none then
              { s.link p with
                transaction := .answering, waiting := none
                answerFrame := some ⟨f.code, .badArgument, []⟩, repeatStore := some ⟨f.code, .badArgument, []⟩
                inHand := (s.link p).waiting }
            else { s.link p with transaction := .processing, inHand := some ⟨code, row, true⟩ }))) ∧
        ((s.link p).inHand ≠ none → (s.link p).waiting = none →
          exec (.frameComplete p bytes) s = .next (s.setLink p { s.link p with
            transaction := .processing, waiting := some ⟨code, row, true⟩ })) ∧
        ((s.link p).inHand ≠ none → (s.link p).waiting ≠ none →
          exec (.frameComplete p bytes) s = .next (s.setLink p { s.link p with
            transaction := .draining, answerFrame := none }))

/-- In DORMANT a well-formed WAKE alone is handed on; every other frame is discarded without an answer (R137). -/
def Obligations.DormantHearsOnlyWake : Prop :=
  ∀ (p : Port) (bytes : List Byte) (f : Frame) (s : State), (s.link p).transaction = .receiving →
    parseFrame bytes = some f → s.power = .dormant →
    (f = ⟨0x34#8, 0#8, [], crc8 [0x34#8, 0#8]⟩ → (s.link p).inHand = none →
      exec (.frameComplete p bytes) s = .next (s.setLink p { s.link p with
        transaction := .processing, inHand := some ⟨.wake, some (.wake p), true⟩ })) ∧
    (f ≠ ⟨0x34#8, 0#8, [], crc8 [0x34#8, 0#8]⟩ →
      exec (.frameComplete p bytes) s = .next (s.setLink p { s.link p with
        transaction := .draining, answerFrame := none }))

/-- An owner's answer to the command in hand replaces the repeat store whether or not it is sent; it goes out where the
command's transaction is still open, and a waiting command becomes the command in hand. A waiting CONFIGURE or WRITE_SETTING
whose identifier names no field is answered as soon as it is in hand (log 6): BAD_ARGUMENT as its owner's answer, which is
kept, or as its power state refuses it, which is not kept (R139, R140, R144, R10, R168). -/
def Obligations.AnswersGoOutAndAreKept : Prop :=
  ∀ (l : Link) (power : PowerState) (a : Answer) (h : Held), l.inHand = some h →
    ((∀ w, l.waiting = some w → w.row ≠ none) →
      (l.finish power (some a) true).repeatStore = some a ∧
      (l.finish power (some a) false).repeatStore = l.repeatStore ∧
      (∀ kept, (l.finish power (some a) kept).inHand = l.waiting ∧ (l.finish power (some a) kept).waiting = none ∧
        (l.finish power (some a) kept).clearing = l.clearing ∧
        (h.isOpen = true → l.transaction = .processing →
          (l.finish power (some a) kept).transaction = .answering ∧
          (l.finish power (some a) kept).answerFrame = some a) ∧
        (h.isOpen = false →
          (l.finish power (some a) kept).transaction = l.transaction ∧
          (l.finish power (some a) kept).answerFrame = l.answerFrame))) ∧
    ∀ w kept, l.waiting = some w → w.row = none →
      (l.finish power (some a) kept).inHand = none ∧ (l.finish power (some a) kept).waiting = none ∧
      (l.finish power (some a) kept).clearing = l.clearing ∧
      (power.passes w.code = true →
        (l.finish power (some a) kept).repeatStore = some ⟨w.code.byte, .badArgument, []⟩) ∧
      (power.passes w.code = false →
        (l.finish power (some a) kept).repeatStore = if kept then some a else l.repeatStore) ∧
      (h.isOpen = false → w.isOpen = true → l.transaction = .processing →
        (power.passes w.code = true →
          (l.finish power (some a) kept).transaction = .answering ∧
          (l.finish power (some a) kept).answerFrame = some ⟨w.code.byte, .badArgument, []⟩) ∧
        (power.passes w.code = false →
          (l.finish power (some a) kept).transaction = (if power = .dormant then .draining else .answering) ∧
          (l.finish power (some a) kept).answerFrame =
            if power = .dormant then none
            else some ⟨w.code.byte, if power = .watch then .asleep else .notReady, []⟩)) ∧
      (h.isOpen = false → w.isOpen = false →
        (l.finish power (some a) kept).transaction = l.transaction ∧
        (l.finish power (some a) kept).answerFrame = l.answerFrame)

/-- A command that the power state no longer admits is answered NOT_READY or ASLEEP when it is taken, and changes nothing
but its sender's Link Interface, whose repeat store it leaves; in DORMANT it has no answer (R139, R138, R144). While the
part is held in reset no command has an effect or an answer (R154). -/
def Obligations.PowerRefusalsChangeNothingElse : Prop :=
  ∀ (c : Instr) (p : Port) (code : HostCode) (args : List Byte) (s : State), c.hostForm = some (p, code, args) →
    (s.handsOn p c = true → s.power.passes code = false →
      exec c s = .next (s.answer p
        (match s.power with
          | .watch => some ⟨code.byte, .asleep, []⟩
          | .dormant => none
          | _ => some ⟨code.byte, .notReady, []⟩) false)) ∧
    (s.inHold = true → exec c s = .next s)

/-- A port's commands touch no other port's Link Interface, and so no other port's repeat store, but for the three that
clear the part (R144, R139, R142). -/
def Obligations.CommandsKeepOtherPortsLinks : Prop :=
  ∀ (c : Instr) (p : Port) (code : HostCode) (args : List Byte) (s t : State), c.hostForm = some (p, code, args) →
    exec c s = .next t → code ≠ .reset → code ≠ .dormant → (code = .wake → s.power ≠ .dormant) →
    KeepsOtherLinks p s t

/-! ## Lines, deadlines and the reset pins -/

/-- A raw change on a sampled line begins a span or is a qualified change at once, a change back ends the span without
effect, and a span that has reached the qualify time is reported; a line that is not sampled only has its pin moved. Nothing
else changes (R45, R46, R59). -/
def Obligations.RawChangesAndSpans : Prop :=
  ∀ (n : LineNo) (level : Bool) (s : State),
    (s.sampled n = false →
      exec (.lineRawChange n level) s = .next (s.setLine n { s.line n with pin := level })) ∧
    (s.sampled n = true → (s.line n).reports = [] → (s.line n).raw ≠ level →
      (level = (s.line n).qualified →
        exec (.lineRawChange n level) s = .next (s.setLine n
          { s.line n with pin := level, raw := level, span := none })) ∧
      (level ≠ (s.line n).qualified → (s.source (sourceOf n)).qualify ≠ 0 →
        exec (.lineRawChange n level) s = .next (s.setLine n
          { s.line n with pin := level, raw := level, span := some s.samplerTime })) ∧
      (level ≠ (s.line n).qualified → (s.source (sourceOf n)).qualify = 0 →
        exec (.lineRawChange n level) s = .next (s.setLine n
          { s.line n with
            pin := level, raw := level, span := none, reports := [if level then .rise else .fall] }))) ∧
    (∀ start, s.sampled n = true → (s.line n).span = some start →
      ((s.source (sourceOf n)).qualify.val ≤ s.samplerTime - start →
        exec (.qualifyTimeReached n) s = .next (s.setLine n
          { s.line n with
            span := none, reports := (s.line n).reports ++ [if (s.line n).raw then .rise else .fall] })) ∧
      (s.samplerTime - start < (s.source (sourceOf n)).qualify.val →
        exec (.qualifyTimeReached n) s = .next s))

/-- A qualified change taken at the Source Table sets the qualified level; by the trigger table it is one event on an
enabled source or none, and in WATCH each event makes a wake report (R45, R47, R48, R61). -/
def Obligations.QualifiedChangeMapsToAnEvent : Prop :=
  ∀ (n : LineNo) (e : Edge) (rest : List Edge) (s : State), s.sampled n = true →
    (s.line n).reports = e :: rest →
    (let event := (s.source (sourceOf n)).enabled = true ∧
        ((s.source (sourceOf n)).trigger = .rising ∧ e = .rise ∨ (s.source (sourceOf n)).trigger = .falling ∧ e = .fall ∨
          (s.source (sourceOf n)).trigger = .both ∨
          (s.source (sourceOf n)).trigger = .high ∧ e = .rise ∧ (s.source (sourceOf n)).state = .quiet ∨
          (s.source (sourceOf n)).trigger = .low ∧ e = .fall ∧ (s.source (sourceOf n)).state = .quiet)
      let line := { s.line n with qualified := decide (e = .rise), reports := rest }
      (¬event → exec (.qualifiedChange n e) s = .next (s.setLine n line)) ∧
      (event → ∃ t, exec (.qualifiedChange n e) s = .next t ∧ t.line n = line ∧ (∀ m, m ≠ n → t.line m = s.line m) ∧
        EventTaken (sourceOf n) s t ∧ KeepsOtherSources (sourceOf n) s t ∧ t.claims = s.claims ∧ t.links = s.links ∧
        OffersFollow s t ∧ t.power = s.power ∧ t.partTime = s.partTime ∧ t.samplerTime = s.samplerTime ∧
        t.settings = s.settings ∧ t.wakeReports = if s.power = .watch then s.wakeReports + 1 else s.wakeReports))

/-- A wake report taken in WATCH starts WAKING exactly as WAKE does, and in any other state has no effect but that it is
taken; WAKING ends after 20 µs of part time, and not before (R162, R163). -/
def Obligations.WakeReportAndWakingEnd : Prop :=
  ∀ s : State,
    (∀ k, s.wakeReports = k + 1 →
      (s.power = .watch → ∃ t, exec .wakeReport s = .next t ∧
        t = { s with
          power := .waking, wakingSince := s.partTime, wakeReports := k, lines := t.lines } ∧
        ∀ n, t.line n = if s.watched n then s.line n else (s.line n).resume s.samplerTime (s.qualifyTime n)) ∧
      (s.power ≠ .watch → exec .wakeReport s = .next { s with wakeReports := k })) ∧
    (s.power = .waking →
      (20 ≤ (s.partTime - s.wakingSince).toNat → exec .wakingEnd s = .next { s with power := .active }) ∧
      ((s.partTime - s.wakingSince).toNat < 20 → exec .wakingEnd s = .next s))

/-- An expiry whose time part time has reached is marked delivered, and changes nothing but that. With 1 to 65535 µs
remaining none is delivered or taken, and while part time does not run none is (R105, R106). -/
def Obligations.TimerExpiryIsDelivered : Prop :=
  ∀ (i : SourceNo) (x : Timer) (s : State), s.timer i = some x → x.delivered = false →
    (s.power = .active ∨ s.power = .waking → x.expiry = s.partTime →
      exec (.timerExpiryDelivered i) s = .next (s.setTimer i (some { x with delivered := true }))) ∧
    (1 ≤ (x.expiry - s.partTime).toNat → (x.expiry - s.partTime).toNat ≤ 65535 →
      ∀ c ∈ [Instr.timerExpiryDelivered i, .waitExpiry i, .serviceExpiry i], exec c s = .next s) ∧
    (s.power ≠ .active → s.power ≠ .waking →
      ∀ c ∈ [Instr.timerExpiryDelivered i, .waitExpiry i, .serviceExpiry i], exec c s = .next s)

/-- A WAIT expiry that has been delivered, marked so or with part time at its expiry time, makes a PENDING source ESCALATED,
its count unchanged and no timer left, and writes one ESCALATED incident naming the fallback, at the expiry time, to the
binder; the offers follow (R109, R105). -/
def Obligations.WaitExpiryEscalates : Prop :=
  ∀ (i : SourceNo) (x : Timer) (b : Port) (s : State), s.power = .active ∨ s.power = .waking →
    s.timer i = some x → x.kind = .wait → x.delivered = true ∨ x.expiry = s.partTime →
    (s.source i).state = .pending →
    (s.source i).binder = some b →
    ∃ t, exec (.waitExpiry i) s = .next t ∧ t.source i = { s.source i with state := .escalated } ∧ t.timer i = none ∧
      (∀ q, t.queue q =
        if q = b then (s.queue q).push ⟨.escalated, i, (s.source i).fallback, 0#8, x.expiry⟩ else s.queue q) ∧
      t.claims = s.claims ∧ t.links = s.links ∧ KeepsOtherSources i s t ∧ KeepsSurroundings s t ∧ OffersFollow s t

/-- A SERVICE expiry of `p`'s claim that has been delivered, marked so or with part time at its expiry time, marks the entry
RETRACTED in its place, makes the source ESCALATED with one added to its count, or QUIET where it is disabled, and writes
RETRACTED, then COUNT_SATURATED where the count reached 15, to the binder; the offers follow (R115, R105, R49, R50). -/
def Obligations.ServiceExpiryRetracts : Prop :=
  ∀ (i : SourceNo) (x : Timer) (p b : Port) (s : State), s.power = .active ∨ s.power = .waking →
    s.timer i = some x → x.kind = .service → x.delivered = true ∨ x.expiry = s.partTime →
    (s.source i).state = .claimed p →
    (s.source i).binder = some b →
    ∃ t, exec (.serviceExpiry i) s = .next t ∧ t.timer i = none ∧
      t.claimList p = (s.claimList p).map (fun e =>
        if e.source = i ∧ e.status = .held then { e with status := .retracted } else e) ∧
      (∀ q, q ≠ p → t.claimList q = s.claimList q) ∧
      (if (s.source i).enabled = true then
        t.source i = { s.source i with state := .escalated, count := raisedCount (s.source i).count }
      else t.source i = { s.source i with state := .quiet, count := 0 }) ∧
      (∀ q, t.queue q =
        if q = b then
          (if (s.source i).enabled = true ∧ (s.source i).count = 14 then
            ((s.queue q).push ⟨.retracted, i, some p, 0#8, x.expiry⟩).push ⟨.countSaturated, i, none, 0#8, x.expiry⟩
          else (s.queue q).push ⟨.retracted, i, some p, 0#8, x.expiry⟩)
        else s.queue q) ∧
      t.links = s.links ∧ KeepsOtherSources i s t ∧ KeepsSurroundings s t ∧ OffersFollow s t

/-- The table check ends INIT: without a fault the part enters ACTIVE with every line read, no span and no report; with a
fault it enters FAILED, a settings fault first setting the writable fields to their full-reset values (R155, R156, R157,
R46). -/
def Obligations.TableCheckEndsInit : Prop :=
  ∀ (found : CheckFinding) (s : State), s.power = .init → s.inHold = false →
    (found = .nothing → s.settings.controlSet ≠ 0#4 → ∃ t, exec (.tableCheck found) s = .next t ∧
      t = { s with power := .active, initTime := 0, lines := t.lines } ∧
      ∀ n, t.line n = ⟨(s.line n).pin, (s.line n).pin, (s.line n).pin, none, []⟩) ∧
    (found = .settingsFault ∨ s.settings.controlSet = 0#4 →
      exec (.tableCheck found) s = .next { s with
        power := .failed, initTime := 0
        settings := ⟨0xF#4, 0#8, 0#8, s.settings.lastResetCause⟩ }) ∧
    (found = .storageFault → s.settings.controlSet ≠ 0#4 →
      exec (.tableCheck found) s = .next { s with power := .failed, initTime := 0 })

/-- Power-on and RESETn hold the part in INIT with every block but the settings page at its reset value, nothing driven on
SDO and no table check; the end of the hold is a full reset whose cause is POWER_ON for a hold that began with the supply
coming up and PIN for one that began with RESETn (R154, R153, R133, R142). What the settings page holds during the hold is
log 14. -/
def Obligations.ResetPinsHoldAndRelease : Prop :=
  ∀ s : State,
    (∃ t, exec .powerOn s = .next t ∧
      t = { State.reset with
              lines := t.lines, links := t.links, settings := t.settings, hold := .powerOn, supplyReady := false
              resetnLow := s.resetnLow, pending := s.pending } ∧
      (∀ n, t.line n = { Line.default with pin := (s.line n).pin }) ∧ (∀ p, t.link p = (s.link p).cut) ∧
      (∀ p, t.sdo p = .nothing) ∧ ∀ found, exec (.tableCheck found) t = .next t) ∧
    (s.resetnLow = false → s.supplyReady = true → ∃ t, exec .resetnLow s = .next t ∧
      t = { State.reset with
              lines := t.lines, links := t.links, settings := t.settings, hold := .pin, supplyReady := true
              resetnLow := true, pending := s.pending } ∧
      (∀ n, t.line n = { Line.default with pin := (s.line n).pin }) ∧ (∀ p, t.link p = (s.link p).cut) ∧
      (∀ p, t.sdo p = .nothing) ∧ ∀ found, exec (.tableCheck found) t = .next t) ∧
    (s.resetnLow = false → s.supplyReady = false → exec .resetnLow s = .next { s with resetnLow := true }) ∧
    (s.resetnLow = true → s.supplyReady = true → ∃ t, exec .resetnRelease s = .next t ∧
      t = { State.reset with
              lines := t.lines, links := t.links, pending := s.pending
              settings := ⟨0xF#4, 0#8, 0#8, if s.hold = .powerOn then .powerOn else .pin⟩ } ∧
      (∀ n, t.line n = { Line.default with pin := (s.line n).pin }) ∧ ∀ p, t.link p = (s.link p).cut) ∧
    (s.resetnLow = true → s.supplyReady = false → exec .resetnRelease s = .next { s with resetnLow := false }) ∧
    (s.supplyReady = false → s.resetnLow = false → ∃ t, exec .supplyAndRefclkReady s = .next t ∧
      t = { State.reset with lines := t.lines, links := t.links, pending := s.pending } ∧
      (∀ n, t.line n = { Line.default with pin := (s.line n).pin }) ∧ ∀ p, t.link p = (s.link p).cut) ∧
    (s.supplyReady = false → s.resetnLow = true →
      exec .supplyAndRefclkReady s = .next { s with supplyReady := true })

/-! ## Invariants of every step -/

/-- Every step keeps the records sound, an unbound source at the default record, and the timers fitting their states (R3, R4,
R5, R6, R25, R102). -/
def Obligations.StepKeepsTheRecordsSound : Prop :=
  ∀ s t : State, s.RecordsSound → step s = .next t → t.RecordsSound

/-- Every step keeps the claim lists within 8 entries, without a source twice, and in agreement with the CLAIMED sources
(R81, R82). -/
def Obligations.StepKeepsTheClaimsSound : Prop :=
  ∀ s t : State, s.ClaimsSound → step s = .next t → t.ClaimsSound

/-- Every step keeps the levels at claim of each port's HELD entries strictly decreasing in claim order (R83). -/
def Obligations.StepKeepsTheClaimsNested : Prop :=
  ∀ s t : State, s.ClaimsNest → step s = .next t → t.ClaimsNest

/-- Every step keeps each queue within 8 records with its flag clear when it is empty (R122, R129), the control set
non-empty (R166), and a waiting command behind a command in hand (R139). -/
def Obligations.StepKeepsQueuesControlSetAndLinks : Prop :=
  ∀ s t : State, step s = .next t →
    (s.QueuesSound → t.QueuesSound) ∧ (s.ControlSetNonempty → t.ControlSetNonempty) ∧ (s.LinksSound → t.LinksSound)

/-- Every step keeps each attention line asserted exactly while its port's top is present (R77). -/
def Obligations.StepKeepsTheAttentionLines : Prop :=
  ∀ s t : State, s.AttentionSound → step s = .next t → t.AttentionSound

/-- Every step keeps INIT, DORMANT and FAILED at their reset values, every line's raw and qualified level low with no span and
no report among them (R7, R46, R79, R100, R108, R122), a hold in INIT (R154), a port clear in ACTIVE alone (R147), and WATCH and
WAKING without a HELD entry (R107). -/
def Obligations.StepKeepsTheRestStates : Prop :=
  ∀ s t : State, step s = .next t → (s.RestSound → t.RestSound) ∧ (s.NoClaimAtRest → t.NoClaimAtRest)

/-- The state after reset meets every invariant. -/
def Obligations.ResetMeetsTheInvariants : Prop :=
  State.reset.RecordsSound ∧ State.reset.ClaimsSound ∧ State.reset.ClaimsNest ∧ State.reset.QueuesSound ∧
    State.reset.ControlSetNonempty ∧ State.reset.LinksSound ∧ State.reset.AttentionSound ∧ State.reset.RestSound ∧
    State.reset.NoClaimAtRest
end

