-- ==== Sys2Proof/Laws/State.lean ====
section
/-! SUPPORT. For each update of one piece of state, what every field and every reading is after it. -/

namespace Sys2Proof.Machine

/-! ## setSource -/

section

variable (s : State) (i : SourceNo) (x : SourceRec)

@[simp] theorem State.claims_setSource : (s.setSource i x).claims = s.claims := rfl
@[simp] theorem State.timers_setSource : (s.setSource i x).timers = s.timers := rfl
@[simp] theorem State.partTime_setSource : (s.setSource i x).partTime = s.partTime := rfl
@[simp] theorem State.lines_setSource : (s.setSource i x).lines = s.lines := rfl
@[simp] theorem State.samplerTime_setSource : (s.setSource i x).samplerTime = s.samplerTime := rfl
@[simp] theorem State.offers_setSource : (s.setSource i x).offers = s.offers := rfl
@[simp] theorem State.queues_setSource : (s.setSource i x).queues = s.queues := rfl
@[simp] theorem State.links_setSource : (s.setSource i x).links = s.links := rfl
@[simp] theorem State.power_setSource : (s.setSource i x).power = s.power := rfl
@[simp] theorem State.wakingSince_setSource : (s.setSource i x).wakingSince = s.wakingSince := rfl
@[simp] theorem State.initTime_setSource : (s.setSource i x).initTime = s.initTime := rfl
@[simp] theorem State.wakeReports_setSource : (s.setSource i x).wakeReports = s.wakeReports := rfl
@[simp] theorem State.resetnLow_setSource : (s.setSource i x).resetnLow = s.resetnLow := rfl
@[simp] theorem State.supplyReady_setSource : (s.setSource i x).supplyReady = s.supplyReady := rfl
@[simp] theorem State.hold_setSource : (s.setSource i x).hold = s.hold := rfl
@[simp] theorem State.settings_setSource : (s.setSource i x).settings = s.settings := rfl
@[simp] theorem State.pending_setSource : (s.setSource i x).pending = s.pending := rfl
@[simp] theorem State.claimList_setSource (j : Port) : (s.setSource i x).claimList j = s.claimList j := rfl
@[simp] theorem State.timer_setSource (j : SourceNo) : (s.setSource i x).timer j = s.timer j := rfl
@[simp] theorem State.line_setSource (j : LineNo) : (s.setSource i x).line j = s.line j := rfl
@[simp] theorem State.offer_setSource (j : Port) : (s.setSource i x).offer j = s.offer j := rfl
@[simp] theorem State.queue_setSource (j : Port) : (s.setSource i x).queue j = s.queue j := rfl
@[simp] theorem State.link_setSource (j : Port) : (s.setSource i x).link j = s.link j := rfl
@[simp] theorem State.source_setSource (j : SourceNo) : (s.setSource i x).source j = if i = j then x else s.source j :=
  Table.at_put _ _ _ _
theorem State.source_setSource_same : (s.setSource i x).source i = x := by simp
@[simp] theorem State.inHold_setSource : (s.setSource i x).inHold = s.inHold := rfl

end

/-! ## setClaimList -/

section

variable (s : State) (i : Port) (x : List ClaimEntry)

@[simp] theorem State.sources_setClaimList : (s.setClaimList i x).sources = s.sources := rfl
@[simp] theorem State.timers_setClaimList : (s.setClaimList i x).timers = s.timers := rfl
@[simp] theorem State.partTime_setClaimList : (s.setClaimList i x).partTime = s.partTime := rfl
@[simp] theorem State.lines_setClaimList : (s.setClaimList i x).lines = s.lines := rfl
@[simp] theorem State.samplerTime_setClaimList : (s.setClaimList i x).samplerTime = s.samplerTime := rfl
@[simp] theorem State.offers_setClaimList : (s.setClaimList i x).offers = s.offers := rfl
@[simp] theorem State.queues_setClaimList : (s.setClaimList i x).queues = s.queues := rfl
@[simp] theorem State.links_setClaimList : (s.setClaimList i x).links = s.links := rfl
@[simp] theorem State.power_setClaimList : (s.setClaimList i x).power = s.power := rfl
@[simp] theorem State.wakingSince_setClaimList : (s.setClaimList i x).wakingSince = s.wakingSince := rfl
@[simp] theorem State.initTime_setClaimList : (s.setClaimList i x).initTime = s.initTime := rfl
@[simp] theorem State.wakeReports_setClaimList : (s.setClaimList i x).wakeReports = s.wakeReports := rfl
@[simp] theorem State.resetnLow_setClaimList : (s.setClaimList i x).resetnLow = s.resetnLow := rfl
@[simp] theorem State.supplyReady_setClaimList : (s.setClaimList i x).supplyReady = s.supplyReady := rfl
@[simp] theorem State.hold_setClaimList : (s.setClaimList i x).hold = s.hold := rfl
@[simp] theorem State.settings_setClaimList : (s.setClaimList i x).settings = s.settings := rfl
@[simp] theorem State.pending_setClaimList : (s.setClaimList i x).pending = s.pending := rfl
@[simp] theorem State.source_setClaimList (j : SourceNo) : (s.setClaimList i x).source j = s.source j := rfl
@[simp] theorem State.timer_setClaimList (j : SourceNo) : (s.setClaimList i x).timer j = s.timer j := rfl
@[simp] theorem State.line_setClaimList (j : LineNo) : (s.setClaimList i x).line j = s.line j := rfl
@[simp] theorem State.offer_setClaimList (j : Port) : (s.setClaimList i x).offer j = s.offer j := rfl
@[simp] theorem State.queue_setClaimList (j : Port) : (s.setClaimList i x).queue j = s.queue j := rfl
@[simp] theorem State.link_setClaimList (j : Port) : (s.setClaimList i x).link j = s.link j := rfl
@[simp] theorem State.claimList_setClaimList (j : Port) : (s.setClaimList i x).claimList j = if i = j then x else s.claimList j :=
  Table.at_put _ _ _ _
theorem State.claimList_setClaimList_same : (s.setClaimList i x).claimList i = x := by simp
@[simp] theorem State.inHold_setClaimList : (s.setClaimList i x).inHold = s.inHold := rfl

end

/-! ## setTimer -/

section

variable (s : State) (i : SourceNo) (x : Option Timer)

@[simp] theorem State.sources_setTimer : (s.setTimer i x).sources = s.sources := rfl
@[simp] theorem State.claims_setTimer : (s.setTimer i x).claims = s.claims := rfl
@[simp] theorem State.partTime_setTimer : (s.setTimer i x).partTime = s.partTime := rfl
@[simp] theorem State.lines_setTimer : (s.setTimer i x).lines = s.lines := rfl
@[simp] theorem State.samplerTime_setTimer : (s.setTimer i x).samplerTime = s.samplerTime := rfl
@[simp] theorem State.offers_setTimer : (s.setTimer i x).offers = s.offers := rfl
@[simp] theorem State.queues_setTimer : (s.setTimer i x).queues = s.queues := rfl
@[simp] theorem State.links_setTimer : (s.setTimer i x).links = s.links := rfl
@[simp] theorem State.power_setTimer : (s.setTimer i x).power = s.power := rfl
@[simp] theorem State.wakingSince_setTimer : (s.setTimer i x).wakingSince = s.wakingSince := rfl
@[simp] theorem State.initTime_setTimer : (s.setTimer i x).initTime = s.initTime := rfl
@[simp] theorem State.wakeReports_setTimer : (s.setTimer i x).wakeReports = s.wakeReports := rfl
@[simp] theorem State.resetnLow_setTimer : (s.setTimer i x).resetnLow = s.resetnLow := rfl
@[simp] theorem State.supplyReady_setTimer : (s.setTimer i x).supplyReady = s.supplyReady := rfl
@[simp] theorem State.hold_setTimer : (s.setTimer i x).hold = s.hold := rfl
@[simp] theorem State.settings_setTimer : (s.setTimer i x).settings = s.settings := rfl
@[simp] theorem State.pending_setTimer : (s.setTimer i x).pending = s.pending := rfl
@[simp] theorem State.source_setTimer (j : SourceNo) : (s.setTimer i x).source j = s.source j := rfl
@[simp] theorem State.claimList_setTimer (j : Port) : (s.setTimer i x).claimList j = s.claimList j := rfl
@[simp] theorem State.line_setTimer (j : LineNo) : (s.setTimer i x).line j = s.line j := rfl
@[simp] theorem State.offer_setTimer (j : Port) : (s.setTimer i x).offer j = s.offer j := rfl
@[simp] theorem State.queue_setTimer (j : Port) : (s.setTimer i x).queue j = s.queue j := rfl
@[simp] theorem State.link_setTimer (j : Port) : (s.setTimer i x).link j = s.link j := rfl
@[simp] theorem State.timer_setTimer (j : SourceNo) : (s.setTimer i x).timer j = if i = j then x else s.timer j :=
  Table.at_put _ _ _ _
theorem State.timer_setTimer_same : (s.setTimer i x).timer i = x := by simp
@[simp] theorem State.inHold_setTimer : (s.setTimer i x).inHold = s.inHold := rfl

end

/-! ## setLine -/

section

variable (s : State) (i : LineNo) (x : Line)

@[simp] theorem State.sources_setLine : (s.setLine i x).sources = s.sources := rfl
@[simp] theorem State.claims_setLine : (s.setLine i x).claims = s.claims := rfl
@[simp] theorem State.timers_setLine : (s.setLine i x).timers = s.timers := rfl
@[simp] theorem State.partTime_setLine : (s.setLine i x).partTime = s.partTime := rfl
@[simp] theorem State.samplerTime_setLine : (s.setLine i x).samplerTime = s.samplerTime := rfl
@[simp] theorem State.offers_setLine : (s.setLine i x).offers = s.offers := rfl
@[simp] theorem State.queues_setLine : (s.setLine i x).queues = s.queues := rfl
@[simp] theorem State.links_setLine : (s.setLine i x).links = s.links := rfl
@[simp] theorem State.power_setLine : (s.setLine i x).power = s.power := rfl
@[simp] theorem State.wakingSince_setLine : (s.setLine i x).wakingSince = s.wakingSince := rfl
@[simp] theorem State.initTime_setLine : (s.setLine i x).initTime = s.initTime := rfl
@[simp] theorem State.wakeReports_setLine : (s.setLine i x).wakeReports = s.wakeReports := rfl
@[simp] theorem State.resetnLow_setLine : (s.setLine i x).resetnLow = s.resetnLow := rfl
@[simp] theorem State.supplyReady_setLine : (s.setLine i x).supplyReady = s.supplyReady := rfl
@[simp] theorem State.hold_setLine : (s.setLine i x).hold = s.hold := rfl
@[simp] theorem State.settings_setLine : (s.setLine i x).settings = s.settings := rfl
@[simp] theorem State.pending_setLine : (s.setLine i x).pending = s.pending := rfl
@[simp] theorem State.source_setLine (j : SourceNo) : (s.setLine i x).source j = s.source j := rfl
@[simp] theorem State.claimList_setLine (j : Port) : (s.setLine i x).claimList j = s.claimList j := rfl
@[simp] theorem State.timer_setLine (j : SourceNo) : (s.setLine i x).timer j = s.timer j := rfl
@[simp] theorem State.offer_setLine (j : Port) : (s.setLine i x).offer j = s.offer j := rfl
@[simp] theorem State.queue_setLine (j : Port) : (s.setLine i x).queue j = s.queue j := rfl
@[simp] theorem State.link_setLine (j : Port) : (s.setLine i x).link j = s.link j := rfl
@[simp] theorem State.line_setLine (j : LineNo) : (s.setLine i x).line j = if i = j then x else s.line j :=
  Table.at_put _ _ _ _
theorem State.line_setLine_same : (s.setLine i x).line i = x := by simp
@[simp] theorem State.inHold_setLine : (s.setLine i x).inHold = s.inHold := rfl

end

/-! ## setOffer -/

section

variable (s : State) (i : Port) (x : OfferPort)

@[simp] theorem State.sources_setOffer : (s.setOffer i x).sources = s.sources := rfl
@[simp] theorem State.claims_setOffer : (s.setOffer i x).claims = s.claims := rfl
@[simp] theorem State.timers_setOffer : (s.setOffer i x).timers = s.timers := rfl
@[simp] theorem State.partTime_setOffer : (s.setOffer i x).partTime = s.partTime := rfl
@[simp] theorem State.lines_setOffer : (s.setOffer i x).lines = s.lines := rfl
@[simp] theorem State.samplerTime_setOffer : (s.setOffer i x).samplerTime = s.samplerTime := rfl
@[simp] theorem State.queues_setOffer : (s.setOffer i x).queues = s.queues := rfl
@[simp] theorem State.links_setOffer : (s.setOffer i x).links = s.links := rfl
@[simp] theorem State.power_setOffer : (s.setOffer i x).power = s.power := rfl
@[simp] theorem State.wakingSince_setOffer : (s.setOffer i x).wakingSince = s.wakingSince := rfl
@[simp] theorem State.initTime_setOffer : (s.setOffer i x).initTime = s.initTime := rfl
@[simp] theorem State.wakeReports_setOffer : (s.setOffer i x).wakeReports = s.wakeReports := rfl
@[simp] theorem State.resetnLow_setOffer : (s.setOffer i x).resetnLow = s.resetnLow := rfl
@[simp] theorem State.supplyReady_setOffer : (s.setOffer i x).supplyReady = s.supplyReady := rfl
@[simp] theorem State.hold_setOffer : (s.setOffer i x).hold = s.hold := rfl
@[simp] theorem State.settings_setOffer : (s.setOffer i x).settings = s.settings := rfl
@[simp] theorem State.pending_setOffer : (s.setOffer i x).pending = s.pending := rfl
@[simp] theorem State.source_setOffer (j : SourceNo) : (s.setOffer i x).source j = s.source j := rfl
@[simp] theorem State.claimList_setOffer (j : Port) : (s.setOffer i x).claimList j = s.claimList j := rfl
@[simp] theorem State.timer_setOffer (j : SourceNo) : (s.setOffer i x).timer j = s.timer j := rfl
@[simp] theorem State.line_setOffer (j : LineNo) : (s.setOffer i x).line j = s.line j := rfl
@[simp] theorem State.queue_setOffer (j : Port) : (s.setOffer i x).queue j = s.queue j := rfl
@[simp] theorem State.link_setOffer (j : Port) : (s.setOffer i x).link j = s.link j := rfl
@[simp] theorem State.offer_setOffer (j : Port) : (s.setOffer i x).offer j = if i = j then x else s.offer j :=
  Table.at_put _ _ _ _
theorem State.offer_setOffer_same : (s.setOffer i x).offer i = x := by simp
@[simp] theorem State.inHold_setOffer : (s.setOffer i x).inHold = s.inHold := rfl

end

/-! ## setQueue -/

section

variable (s : State) (i : Port) (x : IncidentQueue)

@[simp] theorem State.sources_setQueue : (s.setQueue i x).sources = s.sources := rfl
@[simp] theorem State.claims_setQueue : (s.setQueue i x).claims = s.claims := rfl
@[simp] theorem State.timers_setQueue : (s.setQueue i x).timers = s.timers := rfl
@[simp] theorem State.partTime_setQueue : (s.setQueue i x).partTime = s.partTime := rfl
@[simp] theorem State.lines_setQueue : (s.setQueue i x).lines = s.lines := rfl
@[simp] theorem State.samplerTime_setQueue : (s.setQueue i x).samplerTime = s.samplerTime := rfl
@[simp] theorem State.offers_setQueue : (s.setQueue i x).offers = s.offers := rfl
@[simp] theorem State.links_setQueue : (s.setQueue i x).links = s.links := rfl
@[simp] theorem State.power_setQueue : (s.setQueue i x).power = s.power := rfl
@[simp] theorem State.wakingSince_setQueue : (s.setQueue i x).wakingSince = s.wakingSince := rfl
@[simp] theorem State.initTime_setQueue : (s.setQueue i x).initTime = s.initTime := rfl
@[simp] theorem State.wakeReports_setQueue : (s.setQueue i x).wakeReports = s.wakeReports := rfl
@[simp] theorem State.resetnLow_setQueue : (s.setQueue i x).resetnLow = s.resetnLow := rfl
@[simp] theorem State.supplyReady_setQueue : (s.setQueue i x).supplyReady = s.supplyReady := rfl
@[simp] theorem State.hold_setQueue : (s.setQueue i x).hold = s.hold := rfl
@[simp] theorem State.settings_setQueue : (s.setQueue i x).settings = s.settings := rfl
@[simp] theorem State.pending_setQueue : (s.setQueue i x).pending = s.pending := rfl
@[simp] theorem State.source_setQueue (j : SourceNo) : (s.setQueue i x).source j = s.source j := rfl
@[simp] theorem State.claimList_setQueue (j : Port) : (s.setQueue i x).claimList j = s.claimList j := rfl
@[simp] theorem State.timer_setQueue (j : SourceNo) : (s.setQueue i x).timer j = s.timer j := rfl
@[simp] theorem State.line_setQueue (j : LineNo) : (s.setQueue i x).line j = s.line j := rfl
@[simp] theorem State.offer_setQueue (j : Port) : (s.setQueue i x).offer j = s.offer j := rfl
@[simp] theorem State.link_setQueue (j : Port) : (s.setQueue i x).link j = s.link j := rfl
@[simp] theorem State.queue_setQueue (j : Port) : (s.setQueue i x).queue j = if i = j then x else s.queue j :=
  Table.at_put _ _ _ _
theorem State.queue_setQueue_same : (s.setQueue i x).queue i = x := by simp
@[simp] theorem State.inHold_setQueue : (s.setQueue i x).inHold = s.inHold := rfl

end

/-! ## setLink -/

section

variable (s : State) (i : Port) (x : Link)

@[simp] theorem State.sources_setLink : (s.setLink i x).sources = s.sources := rfl
@[simp] theorem State.claims_setLink : (s.setLink i x).claims = s.claims := rfl
@[simp] theorem State.timers_setLink : (s.setLink i x).timers = s.timers := rfl
@[simp] theorem State.partTime_setLink : (s.setLink i x).partTime = s.partTime := rfl
@[simp] theorem State.lines_setLink : (s.setLink i x).lines = s.lines := rfl
@[simp] theorem State.samplerTime_setLink : (s.setLink i x).samplerTime = s.samplerTime := rfl
@[simp] theorem State.offers_setLink : (s.setLink i x).offers = s.offers := rfl
@[simp] theorem State.queues_setLink : (s.setLink i x).queues = s.queues := rfl
@[simp] theorem State.power_setLink : (s.setLink i x).power = s.power := rfl
@[simp] theorem State.wakingSince_setLink : (s.setLink i x).wakingSince = s.wakingSince := rfl
@[simp] theorem State.initTime_setLink : (s.setLink i x).initTime = s.initTime := rfl
@[simp] theorem State.wakeReports_setLink : (s.setLink i x).wakeReports = s.wakeReports := rfl
@[simp] theorem State.resetnLow_setLink : (s.setLink i x).resetnLow = s.resetnLow := rfl
@[simp] theorem State.supplyReady_setLink : (s.setLink i x).supplyReady = s.supplyReady := rfl
@[simp] theorem State.hold_setLink : (s.setLink i x).hold = s.hold := rfl
@[simp] theorem State.settings_setLink : (s.setLink i x).settings = s.settings := rfl
@[simp] theorem State.pending_setLink : (s.setLink i x).pending = s.pending := rfl
@[simp] theorem State.source_setLink (j : SourceNo) : (s.setLink i x).source j = s.source j := rfl
@[simp] theorem State.claimList_setLink (j : Port) : (s.setLink i x).claimList j = s.claimList j := rfl
@[simp] theorem State.timer_setLink (j : SourceNo) : (s.setLink i x).timer j = s.timer j := rfl
@[simp] theorem State.line_setLink (j : LineNo) : (s.setLink i x).line j = s.line j := rfl
@[simp] theorem State.offer_setLink (j : Port) : (s.setLink i x).offer j = s.offer j := rfl
@[simp] theorem State.queue_setLink (j : Port) : (s.setLink i x).queue j = s.queue j := rfl
@[simp] theorem State.link_setLink (j : Port) : (s.setLink i x).link j = if i = j then x else s.link j :=
  Table.at_put _ _ _ _
theorem State.link_setLink_same : (s.setLink i x).link i = x := by simp
@[simp] theorem State.inHold_setLink : (s.setLink i x).inHold = s.inHold := rfl

end

/-! ## Two states that read the same in every table are the same there -/

theorem State.sources_ext {s t : State} (h : ∀ i, s.source i = t.source i) : s.sources = t.sources := Table.ext_at h
theorem State.claims_ext {s t : State} (h : ∀ p, s.claimList p = t.claimList p) : s.claims = t.claims := Table.ext_at h
theorem State.timers_ext {s t : State} (h : ∀ i, s.timer i = t.timer i) : s.timers = t.timers := Table.ext_at h
theorem State.lines_ext {s t : State} (h : ∀ n, s.line n = t.line n) : s.lines = t.lines := Table.ext_at h
theorem State.offers_ext {s t : State} (h : ∀ p, s.offer p = t.offer p) : s.offers = t.offers := Table.ext_at h
theorem State.queues_ext {s t : State} (h : ∀ p, s.queue p = t.queue p) : s.queues = t.queues := Table.ext_at h
theorem State.links_ext {s t : State} (h : ∀ p, s.link p = t.link p) : s.links = t.links := Table.ext_at h

end Sys2Proof.Machine
end

