-- ==== Sys2Proof/Laws/Frames.lean ====
section
/-! SUPPORT. For each shared operation, the fields it leaves alone. -/

namespace Sys2Proof.Machine

/-! ## startTimer -/

section

variable (s : State) (i : SourceNo) (k : TimerKind) (l : Half)

@[simp] theorem State.sources_startTimer : (s.startTimer i k l).sources = s.sources := by unfold State.startTimer; split <;> rfl
@[simp] theorem State.claims_startTimer : (s.startTimer i k l).claims = s.claims := by unfold State.startTimer; split <;> rfl
@[simp] theorem State.partTime_startTimer : (s.startTimer i k l).partTime = s.partTime := by unfold State.startTimer; split <;> rfl
@[simp] theorem State.lines_startTimer : (s.startTimer i k l).lines = s.lines := by unfold State.startTimer; split <;> rfl
@[simp] theorem State.samplerTime_startTimer : (s.startTimer i k l).samplerTime = s.samplerTime := by unfold State.startTimer; split <;> rfl
@[simp] theorem State.offers_startTimer : (s.startTimer i k l).offers = s.offers := by unfold State.startTimer; split <;> rfl
@[simp] theorem State.queues_startTimer : (s.startTimer i k l).queues = s.queues := by unfold State.startTimer; split <;> rfl
@[simp] theorem State.links_startTimer : (s.startTimer i k l).links = s.links := by unfold State.startTimer; split <;> rfl
@[simp] theorem State.power_startTimer : (s.startTimer i k l).power = s.power := by unfold State.startTimer; split <;> rfl
@[simp] theorem State.wakingSince_startTimer : (s.startTimer i k l).wakingSince = s.wakingSince := by unfold State.startTimer; split <;> rfl
@[simp] theorem State.initTime_startTimer : (s.startTimer i k l).initTime = s.initTime := by unfold State.startTimer; split <;> rfl
@[simp] theorem State.wakeReports_startTimer : (s.startTimer i k l).wakeReports = s.wakeReports := by unfold State.startTimer; split <;> rfl
@[simp] theorem State.resetnLow_startTimer : (s.startTimer i k l).resetnLow = s.resetnLow := by unfold State.startTimer; split <;> rfl
@[simp] theorem State.supplyReady_startTimer : (s.startTimer i k l).supplyReady = s.supplyReady := by unfold State.startTimer; split <;> rfl
@[simp] theorem State.hold_startTimer : (s.startTimer i k l).hold = s.hold := by unfold State.startTimer; split <;> rfl
@[simp] theorem State.settings_startTimer : (s.startTimer i k l).settings = s.settings := by unfold State.startTimer; split <;> rfl
@[simp] theorem State.pending_startTimer : (s.startTimer i k l).pending = s.pending := by unfold State.startTimer; split <;> rfl
@[simp] theorem State.source_startTimer (j : SourceNo) : (s.startTimer i k l).source j = s.source j := by
  simp only [State.source, State.sources_startTimer]
@[simp] theorem State.claimList_startTimer (j : Port) : (s.startTimer i k l).claimList j = s.claimList j := by
  simp only [State.claimList, State.claims_startTimer]
@[simp] theorem State.line_startTimer (j : LineNo) : (s.startTimer i k l).line j = s.line j := by
  simp only [State.line, State.lines_startTimer]
@[simp] theorem State.offer_startTimer (j : Port) : (s.startTimer i k l).offer j = s.offer j := by
  simp only [State.offer, State.offers_startTimer]
@[simp] theorem State.queue_startTimer (j : Port) : (s.startTimer i k l).queue j = s.queue j := by
  simp only [State.queue, State.queues_startTimer]
@[simp] theorem State.link_startTimer (j : Port) : (s.startTimer i k l).link j = s.link j := by
  simp only [State.link, State.links_startTimer]
@[simp] theorem State.inHold_startTimer : (s.startTimer i k l).inHold = s.inHold := by
  simp only [State.inHold, State.hold_startTimer]

end

/-! ## stopTimer -/

section

variable (s : State) (i : SourceNo)

@[simp] theorem State.sources_stopTimer : (s.stopTimer i).sources = s.sources := rfl
@[simp] theorem State.claims_stopTimer : (s.stopTimer i).claims = s.claims := rfl
@[simp] theorem State.partTime_stopTimer : (s.stopTimer i).partTime = s.partTime := rfl
@[simp] theorem State.lines_stopTimer : (s.stopTimer i).lines = s.lines := rfl
@[simp] theorem State.samplerTime_stopTimer : (s.stopTimer i).samplerTime = s.samplerTime := rfl
@[simp] theorem State.offers_stopTimer : (s.stopTimer i).offers = s.offers := rfl
@[simp] theorem State.queues_stopTimer : (s.stopTimer i).queues = s.queues := rfl
@[simp] theorem State.links_stopTimer : (s.stopTimer i).links = s.links := rfl
@[simp] theorem State.power_stopTimer : (s.stopTimer i).power = s.power := rfl
@[simp] theorem State.wakingSince_stopTimer : (s.stopTimer i).wakingSince = s.wakingSince := rfl
@[simp] theorem State.initTime_stopTimer : (s.stopTimer i).initTime = s.initTime := rfl
@[simp] theorem State.wakeReports_stopTimer : (s.stopTimer i).wakeReports = s.wakeReports := rfl
@[simp] theorem State.resetnLow_stopTimer : (s.stopTimer i).resetnLow = s.resetnLow := rfl
@[simp] theorem State.supplyReady_stopTimer : (s.stopTimer i).supplyReady = s.supplyReady := rfl
@[simp] theorem State.hold_stopTimer : (s.stopTimer i).hold = s.hold := rfl
@[simp] theorem State.settings_stopTimer : (s.stopTimer i).settings = s.settings := rfl
@[simp] theorem State.pending_stopTimer : (s.stopTimer i).pending = s.pending := rfl
@[simp] theorem State.source_stopTimer (j : SourceNo) : (s.stopTimer i).source j = s.source j := by
  simp only [State.source, State.sources_stopTimer]
@[simp] theorem State.claimList_stopTimer (j : Port) : (s.stopTimer i).claimList j = s.claimList j := by
  simp only [State.claimList, State.claims_stopTimer]
@[simp] theorem State.line_stopTimer (j : LineNo) : (s.stopTimer i).line j = s.line j := by
  simp only [State.line, State.lines_stopTimer]
@[simp] theorem State.offer_stopTimer (j : Port) : (s.stopTimer i).offer j = s.offer j := by
  simp only [State.offer, State.offers_stopTimer]
@[simp] theorem State.queue_stopTimer (j : Port) : (s.stopTimer i).queue j = s.queue j := by
  simp only [State.queue, State.queues_stopTimer]
@[simp] theorem State.link_stopTimer (j : Port) : (s.stopTimer i).link j = s.link j := by
  simp only [State.link, State.links_stopTimer]
@[simp] theorem State.inHold_stopTimer : (s.stopTimer i).inHold = s.inHold := by
  simp only [State.inHold, State.hold_stopTimer]

end

/-! ## writeIncident -/

section

variable (s : State) (k : IncidentKind) (i : SourceNo) (q : Option Port) (d : Byte) (n : Time)

@[simp] theorem State.sources_writeIncident : (s.writeIncident k i q d n).sources = s.sources := by unfold State.writeIncident; split <;> rfl
@[simp] theorem State.claims_writeIncident : (s.writeIncident k i q d n).claims = s.claims := by unfold State.writeIncident; split <;> rfl
@[simp] theorem State.timers_writeIncident : (s.writeIncident k i q d n).timers = s.timers := by unfold State.writeIncident; split <;> rfl
@[simp] theorem State.partTime_writeIncident : (s.writeIncident k i q d n).partTime = s.partTime := by unfold State.writeIncident; split <;> rfl
@[simp] theorem State.lines_writeIncident : (s.writeIncident k i q d n).lines = s.lines := by unfold State.writeIncident; split <;> rfl
@[simp] theorem State.samplerTime_writeIncident : (s.writeIncident k i q d n).samplerTime = s.samplerTime := by unfold State.writeIncident; split <;> rfl
@[simp] theorem State.offers_writeIncident : (s.writeIncident k i q d n).offers = s.offers := by unfold State.writeIncident; split <;> rfl
@[simp] theorem State.links_writeIncident : (s.writeIncident k i q d n).links = s.links := by unfold State.writeIncident; split <;> rfl
@[simp] theorem State.power_writeIncident : (s.writeIncident k i q d n).power = s.power := by unfold State.writeIncident; split <;> rfl
@[simp] theorem State.wakingSince_writeIncident : (s.writeIncident k i q d n).wakingSince = s.wakingSince := by unfold State.writeIncident; split <;> rfl
@[simp] theorem State.initTime_writeIncident : (s.writeIncident k i q d n).initTime = s.initTime := by unfold State.writeIncident; split <;> rfl
@[simp] theorem State.wakeReports_writeIncident : (s.writeIncident k i q d n).wakeReports = s.wakeReports := by unfold State.writeIncident; split <;> rfl
@[simp] theorem State.resetnLow_writeIncident : (s.writeIncident k i q d n).resetnLow = s.resetnLow := by unfold State.writeIncident; split <;> rfl
@[simp] theorem State.supplyReady_writeIncident : (s.writeIncident k i q d n).supplyReady = s.supplyReady := by unfold State.writeIncident; split <;> rfl
@[simp] theorem State.hold_writeIncident : (s.writeIncident k i q d n).hold = s.hold := by unfold State.writeIncident; split <;> rfl
@[simp] theorem State.settings_writeIncident : (s.writeIncident k i q d n).settings = s.settings := by unfold State.writeIncident; split <;> rfl
@[simp] theorem State.pending_writeIncident : (s.writeIncident k i q d n).pending = s.pending := by unfold State.writeIncident; split <;> rfl
@[simp] theorem State.source_writeIncident (j : SourceNo) : (s.writeIncident k i q d n).source j = s.source j := by
  simp only [State.source, State.sources_writeIncident]
@[simp] theorem State.claimList_writeIncident (j : Port) : (s.writeIncident k i q d n).claimList j = s.claimList j := by
  simp only [State.claimList, State.claims_writeIncident]
@[simp] theorem State.timer_writeIncident (j : SourceNo) : (s.writeIncident k i q d n).timer j = s.timer j := by
  simp only [State.timer, State.timers_writeIncident]
@[simp] theorem State.line_writeIncident (j : LineNo) : (s.writeIncident k i q d n).line j = s.line j := by
  simp only [State.line, State.lines_writeIncident]
@[simp] theorem State.offer_writeIncident (j : Port) : (s.writeIncident k i q d n).offer j = s.offer j := by
  simp only [State.offer, State.offers_writeIncident]
@[simp] theorem State.link_writeIncident (j : Port) : (s.writeIncident k i q d n).link j = s.link j := by
  simp only [State.link, State.links_writeIncident]
@[simp] theorem State.inHold_writeIncident : (s.writeIncident k i q d n).inHold = s.inHold := by
  simp only [State.inHold, State.hold_writeIncident]

end

/-! ## raiseCount -/

section

variable (s : State) (i : SourceNo) (n : Time)

@[simp] theorem State.claims_raiseCount : (s.raiseCount i n).claims = s.claims := by unfold State.raiseCount; dsimp only; split <;> [split <;> simp; rfl]
@[simp] theorem State.timers_raiseCount : (s.raiseCount i n).timers = s.timers := by unfold State.raiseCount; dsimp only; split <;> [split <;> simp; rfl]
@[simp] theorem State.partTime_raiseCount : (s.raiseCount i n).partTime = s.partTime := by unfold State.raiseCount; dsimp only; split <;> [split <;> simp; rfl]
@[simp] theorem State.lines_raiseCount : (s.raiseCount i n).lines = s.lines := by unfold State.raiseCount; dsimp only; split <;> [split <;> simp; rfl]
@[simp] theorem State.samplerTime_raiseCount : (s.raiseCount i n).samplerTime = s.samplerTime := by unfold State.raiseCount; dsimp only; split <;> [split <;> simp; rfl]
@[simp] theorem State.offers_raiseCount : (s.raiseCount i n).offers = s.offers := by unfold State.raiseCount; dsimp only; split <;> [split <;> simp; rfl]
@[simp] theorem State.links_raiseCount : (s.raiseCount i n).links = s.links := by unfold State.raiseCount; dsimp only; split <;> [split <;> simp; rfl]
@[simp] theorem State.power_raiseCount : (s.raiseCount i n).power = s.power := by unfold State.raiseCount; dsimp only; split <;> [split <;> simp; rfl]
@[simp] theorem State.wakingSince_raiseCount : (s.raiseCount i n).wakingSince = s.wakingSince := by unfold State.raiseCount; dsimp only; split <;> [split <;> simp; rfl]
@[simp] theorem State.initTime_raiseCount : (s.raiseCount i n).initTime = s.initTime := by unfold State.raiseCount; dsimp only; split <;> [split <;> simp; rfl]
@[simp] theorem State.wakeReports_raiseCount : (s.raiseCount i n).wakeReports = s.wakeReports := by unfold State.raiseCount; dsimp only; split <;> [split <;> simp; rfl]
@[simp] theorem State.resetnLow_raiseCount : (s.raiseCount i n).resetnLow = s.resetnLow := by unfold State.raiseCount; dsimp only; split <;> [split <;> simp; rfl]
@[simp] theorem State.supplyReady_raiseCount : (s.raiseCount i n).supplyReady = s.supplyReady := by unfold State.raiseCount; dsimp only; split <;> [split <;> simp; rfl]
@[simp] theorem State.hold_raiseCount : (s.raiseCount i n).hold = s.hold := by unfold State.raiseCount; dsimp only; split <;> [split <;> simp; rfl]
@[simp] theorem State.settings_raiseCount : (s.raiseCount i n).settings = s.settings := by unfold State.raiseCount; dsimp only; split <;> [split <;> simp; rfl]
@[simp] theorem State.pending_raiseCount : (s.raiseCount i n).pending = s.pending := by unfold State.raiseCount; dsimp only; split <;> [split <;> simp; rfl]
@[simp] theorem State.claimList_raiseCount (j : Port) : (s.raiseCount i n).claimList j = s.claimList j := by
  simp only [State.claimList, State.claims_raiseCount]
@[simp] theorem State.timer_raiseCount (j : SourceNo) : (s.raiseCount i n).timer j = s.timer j := by
  simp only [State.timer, State.timers_raiseCount]
@[simp] theorem State.line_raiseCount (j : LineNo) : (s.raiseCount i n).line j = s.line j := by
  simp only [State.line, State.lines_raiseCount]
@[simp] theorem State.offer_raiseCount (j : Port) : (s.raiseCount i n).offer j = s.offer j := by
  simp only [State.offer, State.offers_raiseCount]
@[simp] theorem State.link_raiseCount (j : Port) : (s.raiseCount i n).link j = s.link j := by
  simp only [State.link, State.links_raiseCount]
@[simp] theorem State.inHold_raiseCount : (s.raiseCount i n).inHold = s.inHold := by
  simp only [State.inHold, State.hold_raiseCount]

end

/-! ## makePending -/

section

variable (s : State) (i : SourceNo) (c : Nat)

@[simp] theorem State.claims_makePending : (s.makePending i c).claims = s.claims := by simp [State.makePending]
@[simp] theorem State.partTime_makePending : (s.makePending i c).partTime = s.partTime := by simp [State.makePending]
@[simp] theorem State.lines_makePending : (s.makePending i c).lines = s.lines := by simp [State.makePending]
@[simp] theorem State.samplerTime_makePending : (s.makePending i c).samplerTime = s.samplerTime := by simp [State.makePending]
@[simp] theorem State.offers_makePending : (s.makePending i c).offers = s.offers := by simp [State.makePending]
@[simp] theorem State.queues_makePending : (s.makePending i c).queues = s.queues := by simp [State.makePending]
@[simp] theorem State.links_makePending : (s.makePending i c).links = s.links := by simp [State.makePending]
@[simp] theorem State.power_makePending : (s.makePending i c).power = s.power := by simp [State.makePending]
@[simp] theorem State.wakingSince_makePending : (s.makePending i c).wakingSince = s.wakingSince := by simp [State.makePending]
@[simp] theorem State.initTime_makePending : (s.makePending i c).initTime = s.initTime := by simp [State.makePending]
@[simp] theorem State.wakeReports_makePending : (s.makePending i c).wakeReports = s.wakeReports := by simp [State.makePending]
@[simp] theorem State.resetnLow_makePending : (s.makePending i c).resetnLow = s.resetnLow := by simp [State.makePending]
@[simp] theorem State.supplyReady_makePending : (s.makePending i c).supplyReady = s.supplyReady := by simp [State.makePending]
@[simp] theorem State.hold_makePending : (s.makePending i c).hold = s.hold := by simp [State.makePending]
@[simp] theorem State.settings_makePending : (s.makePending i c).settings = s.settings := by simp [State.makePending]
@[simp] theorem State.pending_makePending : (s.makePending i c).pending = s.pending := by simp [State.makePending]
@[simp] theorem State.claimList_makePending (j : Port) : (s.makePending i c).claimList j = s.claimList j := by
  simp only [State.claimList, State.claims_makePending]
@[simp] theorem State.line_makePending (j : LineNo) : (s.makePending i c).line j = s.line j := by
  simp only [State.line, State.lines_makePending]
@[simp] theorem State.offer_makePending (j : Port) : (s.makePending i c).offer j = s.offer j := by
  simp only [State.offer, State.offers_makePending]
@[simp] theorem State.queue_makePending (j : Port) : (s.makePending i c).queue j = s.queue j := by
  simp only [State.queue, State.queues_makePending]
@[simp] theorem State.link_makePending (j : Port) : (s.makePending i c).link j = s.link j := by
  simp only [State.link, State.links_makePending]
@[simp] theorem State.inHold_makePending : (s.makePending i c).inHold = s.inHold := by
  simp only [State.inHold, State.hold_makePending]

end

/-! ## makeQuiet -/

section

variable (s : State) (i : SourceNo)

@[simp] theorem State.claims_makeQuiet : (s.makeQuiet i).claims = s.claims := rfl
@[simp] theorem State.timers_makeQuiet : (s.makeQuiet i).timers = s.timers := rfl
@[simp] theorem State.partTime_makeQuiet : (s.makeQuiet i).partTime = s.partTime := rfl
@[simp] theorem State.lines_makeQuiet : (s.makeQuiet i).lines = s.lines := rfl
@[simp] theorem State.samplerTime_makeQuiet : (s.makeQuiet i).samplerTime = s.samplerTime := rfl
@[simp] theorem State.offers_makeQuiet : (s.makeQuiet i).offers = s.offers := rfl
@[simp] theorem State.queues_makeQuiet : (s.makeQuiet i).queues = s.queues := rfl
@[simp] theorem State.links_makeQuiet : (s.makeQuiet i).links = s.links := rfl
@[simp] theorem State.power_makeQuiet : (s.makeQuiet i).power = s.power := rfl
@[simp] theorem State.wakingSince_makeQuiet : (s.makeQuiet i).wakingSince = s.wakingSince := rfl
@[simp] theorem State.initTime_makeQuiet : (s.makeQuiet i).initTime = s.initTime := rfl
@[simp] theorem State.wakeReports_makeQuiet : (s.makeQuiet i).wakeReports = s.wakeReports := rfl
@[simp] theorem State.resetnLow_makeQuiet : (s.makeQuiet i).resetnLow = s.resetnLow := rfl
@[simp] theorem State.supplyReady_makeQuiet : (s.makeQuiet i).supplyReady = s.supplyReady := rfl
@[simp] theorem State.hold_makeQuiet : (s.makeQuiet i).hold = s.hold := rfl
@[simp] theorem State.settings_makeQuiet : (s.makeQuiet i).settings = s.settings := rfl
@[simp] theorem State.pending_makeQuiet : (s.makeQuiet i).pending = s.pending := rfl
@[simp] theorem State.claimList_makeQuiet (j : Port) : (s.makeQuiet i).claimList j = s.claimList j := by
  simp only [State.claimList, State.claims_makeQuiet]
@[simp] theorem State.timer_makeQuiet (j : SourceNo) : (s.makeQuiet i).timer j = s.timer j := by
  simp only [State.timer, State.timers_makeQuiet]
@[simp] theorem State.line_makeQuiet (j : LineNo) : (s.makeQuiet i).line j = s.line j := by
  simp only [State.line, State.lines_makeQuiet]
@[simp] theorem State.offer_makeQuiet (j : Port) : (s.makeQuiet i).offer j = s.offer j := by
  simp only [State.offer, State.offers_makeQuiet]
@[simp] theorem State.queue_makeQuiet (j : Port) : (s.makeQuiet i).queue j = s.queue j := by
  simp only [State.queue, State.queues_makeQuiet]
@[simp] theorem State.link_makeQuiet (j : Port) : (s.makeQuiet i).link j = s.link j := by
  simp only [State.link, State.links_makeQuiet]
@[simp] theorem State.inHold_makeQuiet : (s.makeQuiet i).inHold = s.inHold := by
  simp only [State.inHold, State.hold_makeQuiet]

end

/-! ## takeEvent -/

section

variable (s : State) (i : SourceNo)

@[simp] theorem State.claims_takeEvent : (s.takeEvent i).claims = s.claims := by unfold State.takeEvent; split <;> simp
@[simp] theorem State.partTime_takeEvent : (s.takeEvent i).partTime = s.partTime := by unfold State.takeEvent; split <;> simp
@[simp] theorem State.lines_takeEvent : (s.takeEvent i).lines = s.lines := by unfold State.takeEvent; split <;> simp
@[simp] theorem State.samplerTime_takeEvent : (s.takeEvent i).samplerTime = s.samplerTime := by unfold State.takeEvent; split <;> simp
@[simp] theorem State.offers_takeEvent : (s.takeEvent i).offers = s.offers := by unfold State.takeEvent; split <;> simp
@[simp] theorem State.links_takeEvent : (s.takeEvent i).links = s.links := by unfold State.takeEvent; split <;> simp
@[simp] theorem State.power_takeEvent : (s.takeEvent i).power = s.power := by unfold State.takeEvent; split <;> simp
@[simp] theorem State.wakingSince_takeEvent : (s.takeEvent i).wakingSince = s.wakingSince := by unfold State.takeEvent; split <;> simp
@[simp] theorem State.initTime_takeEvent : (s.takeEvent i).initTime = s.initTime := by unfold State.takeEvent; split <;> simp
@[simp] theorem State.wakeReports_takeEvent : (s.takeEvent i).wakeReports = s.wakeReports := by unfold State.takeEvent; split <;> simp
@[simp] theorem State.resetnLow_takeEvent : (s.takeEvent i).resetnLow = s.resetnLow := by unfold State.takeEvent; split <;> simp
@[simp] theorem State.supplyReady_takeEvent : (s.takeEvent i).supplyReady = s.supplyReady := by unfold State.takeEvent; split <;> simp
@[simp] theorem State.hold_takeEvent : (s.takeEvent i).hold = s.hold := by unfold State.takeEvent; split <;> simp
@[simp] theorem State.settings_takeEvent : (s.takeEvent i).settings = s.settings := by unfold State.takeEvent; split <;> simp
@[simp] theorem State.pending_takeEvent : (s.takeEvent i).pending = s.pending := by unfold State.takeEvent; split <;> simp
@[simp] theorem State.claimList_takeEvent (j : Port) : (s.takeEvent i).claimList j = s.claimList j := by
  simp only [State.claimList, State.claims_takeEvent]
@[simp] theorem State.line_takeEvent (j : LineNo) : (s.takeEvent i).line j = s.line j := by
  simp only [State.line, State.lines_takeEvent]
@[simp] theorem State.offer_takeEvent (j : Port) : (s.takeEvent i).offer j = s.offer j := by
  simp only [State.offer, State.offers_takeEvent]
@[simp] theorem State.link_takeEvent (j : Port) : (s.takeEvent i).link j = s.link j := by
  simp only [State.link, State.links_takeEvent]
@[simp] theorem State.inHold_takeEvent : (s.takeEvent i).inHold = s.inHold := by
  simp only [State.inHold, State.hold_takeEvent]

end

/-! ## removeEntry -/

section

variable (s : State) (p : Port) (i : SourceNo)

@[simp] theorem State.sources_removeEntry : (s.removeEntry p i).sources = s.sources := rfl
@[simp] theorem State.timers_removeEntry : (s.removeEntry p i).timers = s.timers := rfl
@[simp] theorem State.partTime_removeEntry : (s.removeEntry p i).partTime = s.partTime := rfl
@[simp] theorem State.lines_removeEntry : (s.removeEntry p i).lines = s.lines := rfl
@[simp] theorem State.samplerTime_removeEntry : (s.removeEntry p i).samplerTime = s.samplerTime := rfl
@[simp] theorem State.offers_removeEntry : (s.removeEntry p i).offers = s.offers := rfl
@[simp] theorem State.queues_removeEntry : (s.removeEntry p i).queues = s.queues := rfl
@[simp] theorem State.links_removeEntry : (s.removeEntry p i).links = s.links := rfl
@[simp] theorem State.power_removeEntry : (s.removeEntry p i).power = s.power := rfl
@[simp] theorem State.wakingSince_removeEntry : (s.removeEntry p i).wakingSince = s.wakingSince := rfl
@[simp] theorem State.initTime_removeEntry : (s.removeEntry p i).initTime = s.initTime := rfl
@[simp] theorem State.wakeReports_removeEntry : (s.removeEntry p i).wakeReports = s.wakeReports := rfl
@[simp] theorem State.resetnLow_removeEntry : (s.removeEntry p i).resetnLow = s.resetnLow := rfl
@[simp] theorem State.supplyReady_removeEntry : (s.removeEntry p i).supplyReady = s.supplyReady := rfl
@[simp] theorem State.hold_removeEntry : (s.removeEntry p i).hold = s.hold := rfl
@[simp] theorem State.settings_removeEntry : (s.removeEntry p i).settings = s.settings := rfl
@[simp] theorem State.pending_removeEntry : (s.removeEntry p i).pending = s.pending := rfl
@[simp] theorem State.source_removeEntry (j : SourceNo) : (s.removeEntry p i).source j = s.source j := by
  simp only [State.source, State.sources_removeEntry]
@[simp] theorem State.timer_removeEntry (j : SourceNo) : (s.removeEntry p i).timer j = s.timer j := by
  simp only [State.timer, State.timers_removeEntry]
@[simp] theorem State.line_removeEntry (j : LineNo) : (s.removeEntry p i).line j = s.line j := by
  simp only [State.line, State.lines_removeEntry]
@[simp] theorem State.offer_removeEntry (j : Port) : (s.removeEntry p i).offer j = s.offer j := by
  simp only [State.offer, State.offers_removeEntry]
@[simp] theorem State.queue_removeEntry (j : Port) : (s.removeEntry p i).queue j = s.queue j := by
  simp only [State.queue, State.queues_removeEntry]
@[simp] theorem State.link_removeEntry (j : Port) : (s.removeEntry p i).link j = s.link j := by
  simp only [State.link, State.links_removeEntry]
@[simp] theorem State.inHold_removeEntry : (s.removeEntry p i).inHold = s.inHold := by
  simp only [State.inHold, State.hold_removeEntry]

end

/-! ## dropLost -/

section

variable (s : State) (p : Port) (i : SourceNo)

@[simp] theorem State.sources_dropLost : (s.dropLost p i).sources = s.sources := rfl
@[simp] theorem State.timers_dropLost : (s.dropLost p i).timers = s.timers := rfl
@[simp] theorem State.partTime_dropLost : (s.dropLost p i).partTime = s.partTime := rfl
@[simp] theorem State.lines_dropLost : (s.dropLost p i).lines = s.lines := rfl
@[simp] theorem State.samplerTime_dropLost : (s.dropLost p i).samplerTime = s.samplerTime := rfl
@[simp] theorem State.offers_dropLost : (s.dropLost p i).offers = s.offers := rfl
@[simp] theorem State.queues_dropLost : (s.dropLost p i).queues = s.queues := rfl
@[simp] theorem State.links_dropLost : (s.dropLost p i).links = s.links := rfl
@[simp] theorem State.power_dropLost : (s.dropLost p i).power = s.power := rfl
@[simp] theorem State.wakingSince_dropLost : (s.dropLost p i).wakingSince = s.wakingSince := rfl
@[simp] theorem State.initTime_dropLost : (s.dropLost p i).initTime = s.initTime := rfl
@[simp] theorem State.wakeReports_dropLost : (s.dropLost p i).wakeReports = s.wakeReports := rfl
@[simp] theorem State.resetnLow_dropLost : (s.dropLost p i).resetnLow = s.resetnLow := rfl
@[simp] theorem State.supplyReady_dropLost : (s.dropLost p i).supplyReady = s.supplyReady := rfl
@[simp] theorem State.hold_dropLost : (s.dropLost p i).hold = s.hold := rfl
@[simp] theorem State.settings_dropLost : (s.dropLost p i).settings = s.settings := rfl
@[simp] theorem State.pending_dropLost : (s.dropLost p i).pending = s.pending := rfl
@[simp] theorem State.source_dropLost (j : SourceNo) : (s.dropLost p i).source j = s.source j := by
  simp only [State.source, State.sources_dropLost]
@[simp] theorem State.timer_dropLost (j : SourceNo) : (s.dropLost p i).timer j = s.timer j := by
  simp only [State.timer, State.timers_dropLost]
@[simp] theorem State.line_dropLost (j : LineNo) : (s.dropLost p i).line j = s.line j := by
  simp only [State.line, State.lines_dropLost]
@[simp] theorem State.offer_dropLost (j : Port) : (s.dropLost p i).offer j = s.offer j := by
  simp only [State.offer, State.offers_dropLost]
@[simp] theorem State.queue_dropLost (j : Port) : (s.dropLost p i).queue j = s.queue j := by
  simp only [State.queue, State.queues_dropLost]
@[simp] theorem State.link_dropLost (j : Port) : (s.dropLost p i).link j = s.link j := by
  simp only [State.link, State.links_dropLost]
@[simp] theorem State.inHold_dropLost : (s.dropLost p i).inHold = s.inHold := by
  simp only [State.inHold, State.hold_dropLost]

end

/-! ## markLost -/

section

variable (s : State) (p : Port) (i : SourceNo)

@[simp] theorem State.sources_markLost : (s.markLost p i).sources = s.sources := rfl
@[simp] theorem State.timers_markLost : (s.markLost p i).timers = s.timers := rfl
@[simp] theorem State.partTime_markLost : (s.markLost p i).partTime = s.partTime := rfl
@[simp] theorem State.lines_markLost : (s.markLost p i).lines = s.lines := rfl
@[simp] theorem State.samplerTime_markLost : (s.markLost p i).samplerTime = s.samplerTime := rfl
@[simp] theorem State.offers_markLost : (s.markLost p i).offers = s.offers := rfl
@[simp] theorem State.queues_markLost : (s.markLost p i).queues = s.queues := rfl
@[simp] theorem State.links_markLost : (s.markLost p i).links = s.links := rfl
@[simp] theorem State.power_markLost : (s.markLost p i).power = s.power := rfl
@[simp] theorem State.wakingSince_markLost : (s.markLost p i).wakingSince = s.wakingSince := rfl
@[simp] theorem State.initTime_markLost : (s.markLost p i).initTime = s.initTime := rfl
@[simp] theorem State.wakeReports_markLost : (s.markLost p i).wakeReports = s.wakeReports := rfl
@[simp] theorem State.resetnLow_markLost : (s.markLost p i).resetnLow = s.resetnLow := rfl
@[simp] theorem State.supplyReady_markLost : (s.markLost p i).supplyReady = s.supplyReady := rfl
@[simp] theorem State.hold_markLost : (s.markLost p i).hold = s.hold := rfl
@[simp] theorem State.settings_markLost : (s.markLost p i).settings = s.settings := rfl
@[simp] theorem State.pending_markLost : (s.markLost p i).pending = s.pending := rfl
@[simp] theorem State.source_markLost (j : SourceNo) : (s.markLost p i).source j = s.source j := by
  simp only [State.source, State.sources_markLost]
@[simp] theorem State.timer_markLost (j : SourceNo) : (s.markLost p i).timer j = s.timer j := by
  simp only [State.timer, State.timers_markLost]
@[simp] theorem State.line_markLost (j : LineNo) : (s.markLost p i).line j = s.line j := by
  simp only [State.line, State.lines_markLost]
@[simp] theorem State.offer_markLost (j : Port) : (s.markLost p i).offer j = s.offer j := by
  simp only [State.offer, State.offers_markLost]
@[simp] theorem State.queue_markLost (j : Port) : (s.markLost p i).queue j = s.queue j := by
  simp only [State.queue, State.queues_markLost]
@[simp] theorem State.link_markLost (j : Port) : (s.markLost p i).link j = s.link j := by
  simp only [State.link, State.links_markLost]
@[simp] theorem State.inHold_markLost : (s.markLost p i).inHold = s.inHold := by
  simp only [State.inHold, State.hold_markLost]

end

/-! ## returnClaim -/

section

variable (s : State) (i : SourceNo)

@[simp] theorem State.claims_returnClaim : (s.returnClaim i).claims = s.claims := by unfold State.returnClaim; dsimp only; split <;> simp
@[simp] theorem State.partTime_returnClaim : (s.returnClaim i).partTime = s.partTime := by unfold State.returnClaim; dsimp only; split <;> simp
@[simp] theorem State.lines_returnClaim : (s.returnClaim i).lines = s.lines := by unfold State.returnClaim; dsimp only; split <;> simp
@[simp] theorem State.samplerTime_returnClaim : (s.returnClaim i).samplerTime = s.samplerTime := by unfold State.returnClaim; dsimp only; split <;> simp
@[simp] theorem State.offers_returnClaim : (s.returnClaim i).offers = s.offers := by unfold State.returnClaim; dsimp only; split <;> simp
@[simp] theorem State.links_returnClaim : (s.returnClaim i).links = s.links := by unfold State.returnClaim; dsimp only; split <;> simp
@[simp] theorem State.power_returnClaim : (s.returnClaim i).power = s.power := by unfold State.returnClaim; dsimp only; split <;> simp
@[simp] theorem State.wakingSince_returnClaim : (s.returnClaim i).wakingSince = s.wakingSince := by unfold State.returnClaim; dsimp only; split <;> simp
@[simp] theorem State.initTime_returnClaim : (s.returnClaim i).initTime = s.initTime := by unfold State.returnClaim; dsimp only; split <;> simp
@[simp] theorem State.wakeReports_returnClaim : (s.returnClaim i).wakeReports = s.wakeReports := by unfold State.returnClaim; dsimp only; split <;> simp
@[simp] theorem State.resetnLow_returnClaim : (s.returnClaim i).resetnLow = s.resetnLow := by unfold State.returnClaim; dsimp only; split <;> simp
@[simp] theorem State.supplyReady_returnClaim : (s.returnClaim i).supplyReady = s.supplyReady := by unfold State.returnClaim; dsimp only; split <;> simp
@[simp] theorem State.hold_returnClaim : (s.returnClaim i).hold = s.hold := by unfold State.returnClaim; dsimp only; split <;> simp
@[simp] theorem State.settings_returnClaim : (s.returnClaim i).settings = s.settings := by unfold State.returnClaim; dsimp only; split <;> simp
@[simp] theorem State.pending_returnClaim : (s.returnClaim i).pending = s.pending := by unfold State.returnClaim; dsimp only; split <;> simp
@[simp] theorem State.claimList_returnClaim (j : Port) : (s.returnClaim i).claimList j = s.claimList j := by
  simp only [State.claimList, State.claims_returnClaim]
@[simp] theorem State.line_returnClaim (j : LineNo) : (s.returnClaim i).line j = s.line j := by
  simp only [State.line, State.lines_returnClaim]
@[simp] theorem State.offer_returnClaim (j : Port) : (s.returnClaim i).offer j = s.offer j := by
  simp only [State.offer, State.offers_returnClaim]
@[simp] theorem State.link_returnClaim (j : Port) : (s.returnClaim i).link j = s.link j := by
  simp only [State.link, State.links_returnClaim]
@[simp] theorem State.inHold_returnClaim : (s.returnClaim i).inHold = s.inHold := by
  simp only [State.inHold, State.hold_returnClaim]

end

/-! ## follow -/

section

variable (s : State) (b : State)

@[simp] theorem State.sources_follow : (State.follow b s).sources = s.sources := rfl
@[simp] theorem State.claims_follow : (State.follow b s).claims = s.claims := rfl
@[simp] theorem State.timers_follow : (State.follow b s).timers = s.timers := rfl
@[simp] theorem State.partTime_follow : (State.follow b s).partTime = s.partTime := rfl
@[simp] theorem State.lines_follow : (State.follow b s).lines = s.lines := rfl
@[simp] theorem State.samplerTime_follow : (State.follow b s).samplerTime = s.samplerTime := rfl
@[simp] theorem State.queues_follow : (State.follow b s).queues = s.queues := rfl
@[simp] theorem State.links_follow : (State.follow b s).links = s.links := rfl
@[simp] theorem State.power_follow : (State.follow b s).power = s.power := rfl
@[simp] theorem State.wakingSince_follow : (State.follow b s).wakingSince = s.wakingSince := rfl
@[simp] theorem State.initTime_follow : (State.follow b s).initTime = s.initTime := rfl
@[simp] theorem State.wakeReports_follow : (State.follow b s).wakeReports = s.wakeReports := rfl
@[simp] theorem State.resetnLow_follow : (State.follow b s).resetnLow = s.resetnLow := rfl
@[simp] theorem State.supplyReady_follow : (State.follow b s).supplyReady = s.supplyReady := rfl
@[simp] theorem State.hold_follow : (State.follow b s).hold = s.hold := rfl
@[simp] theorem State.settings_follow : (State.follow b s).settings = s.settings := rfl
@[simp] theorem State.pending_follow : (State.follow b s).pending = s.pending := rfl
@[simp] theorem State.source_follow (j : SourceNo) : (State.follow b s).source j = s.source j := by
  simp only [State.source, State.sources_follow]
@[simp] theorem State.claimList_follow (j : Port) : (State.follow b s).claimList j = s.claimList j := by
  simp only [State.claimList, State.claims_follow]
@[simp] theorem State.timer_follow (j : SourceNo) : (State.follow b s).timer j = s.timer j := by
  simp only [State.timer, State.timers_follow]
@[simp] theorem State.line_follow (j : LineNo) : (State.follow b s).line j = s.line j := by
  simp only [State.line, State.lines_follow]
@[simp] theorem State.queue_follow (j : Port) : (State.follow b s).queue j = s.queue j := by
  simp only [State.queue, State.queues_follow]
@[simp] theorem State.link_follow (j : Port) : (State.follow b s).link j = s.link j := by
  simp only [State.link, State.links_follow]
@[simp] theorem State.inHold_follow : (State.follow b s).inHold = s.inHold := by
  simp only [State.inHold, State.hold_follow]

end

/-! ## answer -/

section

variable (s : State) (p : Port) (a : Option Answer) (k : Bool)

@[simp] theorem State.sources_answer : (s.answer p a k).sources = s.sources := rfl
@[simp] theorem State.claims_answer : (s.answer p a k).claims = s.claims := rfl
@[simp] theorem State.timers_answer : (s.answer p a k).timers = s.timers := rfl
@[simp] theorem State.partTime_answer : (s.answer p a k).partTime = s.partTime := rfl
@[simp] theorem State.lines_answer : (s.answer p a k).lines = s.lines := rfl
@[simp] theorem State.samplerTime_answer : (s.answer p a k).samplerTime = s.samplerTime := rfl
@[simp] theorem State.offers_answer : (s.answer p a k).offers = s.offers := rfl
@[simp] theorem State.queues_answer : (s.answer p a k).queues = s.queues := rfl
@[simp] theorem State.power_answer : (s.answer p a k).power = s.power := rfl
@[simp] theorem State.wakingSince_answer : (s.answer p a k).wakingSince = s.wakingSince := rfl
@[simp] theorem State.initTime_answer : (s.answer p a k).initTime = s.initTime := rfl
@[simp] theorem State.wakeReports_answer : (s.answer p a k).wakeReports = s.wakeReports := rfl
@[simp] theorem State.resetnLow_answer : (s.answer p a k).resetnLow = s.resetnLow := rfl
@[simp] theorem State.supplyReady_answer : (s.answer p a k).supplyReady = s.supplyReady := rfl
@[simp] theorem State.hold_answer : (s.answer p a k).hold = s.hold := rfl
@[simp] theorem State.settings_answer : (s.answer p a k).settings = s.settings := rfl
@[simp] theorem State.pending_answer : (s.answer p a k).pending = s.pending := rfl
@[simp] theorem State.source_answer (j : SourceNo) : (s.answer p a k).source j = s.source j := by
  simp only [State.source, State.sources_answer]
@[simp] theorem State.claimList_answer (j : Port) : (s.answer p a k).claimList j = s.claimList j := by
  simp only [State.claimList, State.claims_answer]
@[simp] theorem State.timer_answer (j : SourceNo) : (s.answer p a k).timer j = s.timer j := by
  simp only [State.timer, State.timers_answer]
@[simp] theorem State.line_answer (j : LineNo) : (s.answer p a k).line j = s.line j := by
  simp only [State.line, State.lines_answer]
@[simp] theorem State.offer_answer (j : Port) : (s.answer p a k).offer j = s.offer j := by
  simp only [State.offer, State.offers_answer]
@[simp] theorem State.queue_answer (j : Port) : (s.answer p a k).queue j = s.queue j := by
  simp only [State.queue, State.queues_answer]
@[simp] theorem State.inHold_answer : (s.answer p a k).inHold = s.inHold := by
  simp only [State.inHold, State.hold_answer]

end

/-! ## mapLines -/

section

variable (s : State) (f : LineNo → Line → Line)

@[simp] theorem State.sources_mapLines : (s.mapLines f).sources = s.sources := rfl
@[simp] theorem State.claims_mapLines : (s.mapLines f).claims = s.claims := rfl
@[simp] theorem State.timers_mapLines : (s.mapLines f).timers = s.timers := rfl
@[simp] theorem State.partTime_mapLines : (s.mapLines f).partTime = s.partTime := rfl
@[simp] theorem State.samplerTime_mapLines : (s.mapLines f).samplerTime = s.samplerTime := rfl
@[simp] theorem State.offers_mapLines : (s.mapLines f).offers = s.offers := rfl
@[simp] theorem State.queues_mapLines : (s.mapLines f).queues = s.queues := rfl
@[simp] theorem State.links_mapLines : (s.mapLines f).links = s.links := rfl
@[simp] theorem State.power_mapLines : (s.mapLines f).power = s.power := rfl
@[simp] theorem State.wakingSince_mapLines : (s.mapLines f).wakingSince = s.wakingSince := rfl
@[simp] theorem State.initTime_mapLines : (s.mapLines f).initTime = s.initTime := rfl
@[simp] theorem State.wakeReports_mapLines : (s.mapLines f).wakeReports = s.wakeReports := rfl
@[simp] theorem State.resetnLow_mapLines : (s.mapLines f).resetnLow = s.resetnLow := rfl
@[simp] theorem State.supplyReady_mapLines : (s.mapLines f).supplyReady = s.supplyReady := rfl
@[simp] theorem State.hold_mapLines : (s.mapLines f).hold = s.hold := rfl
@[simp] theorem State.settings_mapLines : (s.mapLines f).settings = s.settings := rfl
@[simp] theorem State.pending_mapLines : (s.mapLines f).pending = s.pending := rfl
@[simp] theorem State.source_mapLines (j : SourceNo) : (s.mapLines f).source j = s.source j := by
  simp only [State.source, State.sources_mapLines]
@[simp] theorem State.claimList_mapLines (j : Port) : (s.mapLines f).claimList j = s.claimList j := by
  simp only [State.claimList, State.claims_mapLines]
@[simp] theorem State.timer_mapLines (j : SourceNo) : (s.mapLines f).timer j = s.timer j := by
  simp only [State.timer, State.timers_mapLines]
@[simp] theorem State.offer_mapLines (j : Port) : (s.mapLines f).offer j = s.offer j := by
  simp only [State.offer, State.offers_mapLines]
@[simp] theorem State.queue_mapLines (j : Port) : (s.mapLines f).queue j = s.queue j := by
  simp only [State.queue, State.queues_mapLines]
@[simp] theorem State.link_mapLines (j : Port) : (s.mapLines f).link j = s.link j := by
  simp only [State.link, State.links_mapLines]
@[simp] theorem State.inHold_mapLines : (s.mapLines f).inHold = s.inHold := by
  simp only [State.inHold, State.hold_mapLines]

end

/-! ## takeClaim -/

section

variable (s : State) (p : Port) (i : SourceNo)

@[simp] theorem State.partTime_takeClaim : (s.takeClaim p i).partTime = s.partTime := by simp [State.takeClaim]
@[simp] theorem State.lines_takeClaim : (s.takeClaim p i).lines = s.lines := by simp [State.takeClaim]
@[simp] theorem State.samplerTime_takeClaim : (s.takeClaim p i).samplerTime = s.samplerTime := by simp [State.takeClaim]
@[simp] theorem State.queues_takeClaim : (s.takeClaim p i).queues = s.queues := by simp [State.takeClaim]
@[simp] theorem State.links_takeClaim : (s.takeClaim p i).links = s.links := by simp [State.takeClaim]
@[simp] theorem State.power_takeClaim : (s.takeClaim p i).power = s.power := by simp [State.takeClaim]
@[simp] theorem State.wakingSince_takeClaim : (s.takeClaim p i).wakingSince = s.wakingSince := by simp [State.takeClaim]
@[simp] theorem State.initTime_takeClaim : (s.takeClaim p i).initTime = s.initTime := by simp [State.takeClaim]
@[simp] theorem State.wakeReports_takeClaim : (s.takeClaim p i).wakeReports = s.wakeReports := by simp [State.takeClaim]
@[simp] theorem State.resetnLow_takeClaim : (s.takeClaim p i).resetnLow = s.resetnLow := by simp [State.takeClaim]
@[simp] theorem State.supplyReady_takeClaim : (s.takeClaim p i).supplyReady = s.supplyReady := by simp [State.takeClaim]
@[simp] theorem State.hold_takeClaim : (s.takeClaim p i).hold = s.hold := by simp [State.takeClaim]
@[simp] theorem State.settings_takeClaim : (s.takeClaim p i).settings = s.settings := by simp [State.takeClaim]
@[simp] theorem State.pending_takeClaim : (s.takeClaim p i).pending = s.pending := by simp [State.takeClaim]
@[simp] theorem State.line_takeClaim (j : LineNo) : (s.takeClaim p i).line j = s.line j := by
  simp only [State.line, State.lines_takeClaim]
@[simp] theorem State.queue_takeClaim (j : Port) : (s.takeClaim p i).queue j = s.queue j := by
  simp only [State.queue, State.queues_takeClaim]
@[simp] theorem State.link_takeClaim (j : Port) : (s.takeClaim p i).link j = s.link j := by
  simp only [State.link, State.links_takeClaim]
@[simp] theorem State.inHold_takeClaim : (s.takeClaim p i).inHold = s.inHold := by
  simp only [State.inHold, State.hold_takeClaim]

end

/-! ## completeClaim -/

section

variable (s : State) (p : Port) (i : SourceNo)

@[simp] theorem State.partTime_completeClaim : (s.completeClaim p i).partTime = s.partTime := by unfold State.completeClaim; dsimp only; simp only [State.partTime_follow]; split_ifs <;> simp
@[simp] theorem State.lines_completeClaim : (s.completeClaim p i).lines = s.lines := by unfold State.completeClaim; dsimp only; simp only [State.lines_follow]; split_ifs <;> simp
@[simp] theorem State.samplerTime_completeClaim : (s.completeClaim p i).samplerTime = s.samplerTime := by unfold State.completeClaim; dsimp only; simp only [State.samplerTime_follow]; split_ifs <;> simp
@[simp] theorem State.queues_completeClaim : (s.completeClaim p i).queues = s.queues := by unfold State.completeClaim; dsimp only; simp only [State.queues_follow]; split_ifs <;> simp
@[simp] theorem State.links_completeClaim : (s.completeClaim p i).links = s.links := by unfold State.completeClaim; dsimp only; simp only [State.links_follow]; split_ifs <;> simp
@[simp] theorem State.power_completeClaim : (s.completeClaim p i).power = s.power := by unfold State.completeClaim; dsimp only; simp only [State.power_follow]; split_ifs <;> simp
@[simp] theorem State.wakingSince_completeClaim : (s.completeClaim p i).wakingSince = s.wakingSince := by unfold State.completeClaim; dsimp only; simp only [State.wakingSince_follow]; split_ifs <;> simp
@[simp] theorem State.initTime_completeClaim : (s.completeClaim p i).initTime = s.initTime := by unfold State.completeClaim; dsimp only; simp only [State.initTime_follow]; split_ifs <;> simp
@[simp] theorem State.wakeReports_completeClaim : (s.completeClaim p i).wakeReports = s.wakeReports := by unfold State.completeClaim; dsimp only; simp only [State.wakeReports_follow]; split_ifs <;> simp
@[simp] theorem State.resetnLow_completeClaim : (s.completeClaim p i).resetnLow = s.resetnLow := by unfold State.completeClaim; dsimp only; simp only [State.resetnLow_follow]; split_ifs <;> simp
@[simp] theorem State.supplyReady_completeClaim : (s.completeClaim p i).supplyReady = s.supplyReady := by unfold State.completeClaim; dsimp only; simp only [State.supplyReady_follow]; split_ifs <;> simp
@[simp] theorem State.hold_completeClaim : (s.completeClaim p i).hold = s.hold := by unfold State.completeClaim; dsimp only; simp only [State.hold_follow]; split_ifs <;> simp
@[simp] theorem State.settings_completeClaim : (s.completeClaim p i).settings = s.settings := by unfold State.completeClaim; dsimp only; simp only [State.settings_follow]; split_ifs <;> simp
@[simp] theorem State.pending_completeClaim : (s.completeClaim p i).pending = s.pending := by unfold State.completeClaim; dsimp only; simp only [State.pending_follow]; split_ifs <;> simp
@[simp] theorem State.line_completeClaim (j : LineNo) : (s.completeClaim p i).line j = s.line j := by
  simp only [State.line, State.lines_completeClaim]
@[simp] theorem State.queue_completeClaim (j : Port) : (s.completeClaim p i).queue j = s.queue j := by
  simp only [State.queue, State.queues_completeClaim]
@[simp] theorem State.link_completeClaim (j : Port) : (s.completeClaim p i).link j = s.link j := by
  simp only [State.link, State.links_completeClaim]
@[simp] theorem State.inHold_completeClaim : (s.completeClaim p i).inHold = s.inHold := by
  simp only [State.inHold, State.hold_completeClaim]

end

/-! ## deferClaim -/

section

variable (s : State) (p : Port) (i : SourceNo)

@[simp] theorem State.partTime_deferClaim : (s.deferClaim p i).partTime = s.partTime := by simp [State.deferClaim]
@[simp] theorem State.lines_deferClaim : (s.deferClaim p i).lines = s.lines := by simp [State.deferClaim]
@[simp] theorem State.samplerTime_deferClaim : (s.deferClaim p i).samplerTime = s.samplerTime := by simp [State.deferClaim]
@[simp] theorem State.links_deferClaim : (s.deferClaim p i).links = s.links := by simp [State.deferClaim]
@[simp] theorem State.power_deferClaim : (s.deferClaim p i).power = s.power := by simp [State.deferClaim]
@[simp] theorem State.wakingSince_deferClaim : (s.deferClaim p i).wakingSince = s.wakingSince := by simp [State.deferClaim]
@[simp] theorem State.initTime_deferClaim : (s.deferClaim p i).initTime = s.initTime := by simp [State.deferClaim]
@[simp] theorem State.wakeReports_deferClaim : (s.deferClaim p i).wakeReports = s.wakeReports := by simp [State.deferClaim]
@[simp] theorem State.resetnLow_deferClaim : (s.deferClaim p i).resetnLow = s.resetnLow := by simp [State.deferClaim]
@[simp] theorem State.supplyReady_deferClaim : (s.deferClaim p i).supplyReady = s.supplyReady := by simp [State.deferClaim]
@[simp] theorem State.hold_deferClaim : (s.deferClaim p i).hold = s.hold := by simp [State.deferClaim]
@[simp] theorem State.settings_deferClaim : (s.deferClaim p i).settings = s.settings := by simp [State.deferClaim]
@[simp] theorem State.pending_deferClaim : (s.deferClaim p i).pending = s.pending := by simp [State.deferClaim]
@[simp] theorem State.line_deferClaim (j : LineNo) : (s.deferClaim p i).line j = s.line j := by
  simp only [State.line, State.lines_deferClaim]
@[simp] theorem State.link_deferClaim (j : Port) : (s.deferClaim p i).link j = s.link j := by
  simp only [State.link, State.links_deferClaim]
@[simp] theorem State.inHold_deferClaim : (s.deferClaim p i).inHold = s.inHold := by
  simp only [State.inHold, State.hold_deferClaim]

end

/-! ## releaseEntry -/

section

variable (s : State) (p : Port) (e : ClaimEntry)

@[simp] theorem State.claims_releaseEntry : (State.releaseEntry p s e).claims = s.claims := by unfold State.releaseEntry; split <;> simp
@[simp] theorem State.partTime_releaseEntry : (State.releaseEntry p s e).partTime = s.partTime := by unfold State.releaseEntry; split <;> simp
@[simp] theorem State.lines_releaseEntry : (State.releaseEntry p s e).lines = s.lines := by unfold State.releaseEntry; split <;> simp
@[simp] theorem State.samplerTime_releaseEntry : (State.releaseEntry p s e).samplerTime = s.samplerTime := by unfold State.releaseEntry; split <;> simp
@[simp] theorem State.offers_releaseEntry : (State.releaseEntry p s e).offers = s.offers := by unfold State.releaseEntry; split <;> simp
@[simp] theorem State.links_releaseEntry : (State.releaseEntry p s e).links = s.links := by unfold State.releaseEntry; split <;> simp
@[simp] theorem State.power_releaseEntry : (State.releaseEntry p s e).power = s.power := by unfold State.releaseEntry; split <;> simp
@[simp] theorem State.wakingSince_releaseEntry : (State.releaseEntry p s e).wakingSince = s.wakingSince := by unfold State.releaseEntry; split <;> simp
@[simp] theorem State.initTime_releaseEntry : (State.releaseEntry p s e).initTime = s.initTime := by unfold State.releaseEntry; split <;> simp
@[simp] theorem State.wakeReports_releaseEntry : (State.releaseEntry p s e).wakeReports = s.wakeReports := by unfold State.releaseEntry; split <;> simp
@[simp] theorem State.resetnLow_releaseEntry : (State.releaseEntry p s e).resetnLow = s.resetnLow := by unfold State.releaseEntry; split <;> simp
@[simp] theorem State.supplyReady_releaseEntry : (State.releaseEntry p s e).supplyReady = s.supplyReady := by unfold State.releaseEntry; split <;> simp
@[simp] theorem State.hold_releaseEntry : (State.releaseEntry p s e).hold = s.hold := by unfold State.releaseEntry; split <;> simp
@[simp] theorem State.settings_releaseEntry : (State.releaseEntry p s e).settings = s.settings := by unfold State.releaseEntry; split <;> simp
@[simp] theorem State.pending_releaseEntry : (State.releaseEntry p s e).pending = s.pending := by unfold State.releaseEntry; split <;> simp
@[simp] theorem State.claimList_releaseEntry (j : Port) : (State.releaseEntry p s e).claimList j = s.claimList j := by
  simp only [State.claimList, State.claims_releaseEntry]
@[simp] theorem State.line_releaseEntry (j : LineNo) : (State.releaseEntry p s e).line j = s.line j := by
  simp only [State.line, State.lines_releaseEntry]
@[simp] theorem State.offer_releaseEntry (j : Port) : (State.releaseEntry p s e).offer j = s.offer j := by
  simp only [State.offer, State.offers_releaseEntry]
@[simp] theorem State.link_releaseEntry (j : Port) : (State.releaseEntry p s e).link j = s.link j := by
  simp only [State.link, State.links_releaseEntry]
@[simp] theorem State.inHold_releaseEntry : (State.releaseEntry p s e).inHold = s.inHold := by
  simp only [State.inHold, State.hold_releaseEntry]

end

/-! ## endLoan -/

section

variable (s : State) (p : Port) (i : SourceNo)

@[simp] theorem State.claims_endLoan : (State.endLoan p s i).claims = s.claims := by unfold State.endLoan; split <;> simp
@[simp] theorem State.timers_endLoan : (State.endLoan p s i).timers = s.timers := by unfold State.endLoan; split <;> simp
@[simp] theorem State.partTime_endLoan : (State.endLoan p s i).partTime = s.partTime := by unfold State.endLoan; split <;> simp
@[simp] theorem State.lines_endLoan : (State.endLoan p s i).lines = s.lines := by unfold State.endLoan; split <;> simp
@[simp] theorem State.samplerTime_endLoan : (State.endLoan p s i).samplerTime = s.samplerTime := by unfold State.endLoan; split <;> simp
@[simp] theorem State.offers_endLoan : (State.endLoan p s i).offers = s.offers := by unfold State.endLoan; split <;> simp
@[simp] theorem State.links_endLoan : (State.endLoan p s i).links = s.links := by unfold State.endLoan; split <;> simp
@[simp] theorem State.power_endLoan : (State.endLoan p s i).power = s.power := by unfold State.endLoan; split <;> simp
@[simp] theorem State.wakingSince_endLoan : (State.endLoan p s i).wakingSince = s.wakingSince := by unfold State.endLoan; split <;> simp
@[simp] theorem State.initTime_endLoan : (State.endLoan p s i).initTime = s.initTime := by unfold State.endLoan; split <;> simp
@[simp] theorem State.wakeReports_endLoan : (State.endLoan p s i).wakeReports = s.wakeReports := by unfold State.endLoan; split <;> simp
@[simp] theorem State.resetnLow_endLoan : (State.endLoan p s i).resetnLow = s.resetnLow := by unfold State.endLoan; split <;> simp
@[simp] theorem State.supplyReady_endLoan : (State.endLoan p s i).supplyReady = s.supplyReady := by unfold State.endLoan; split <;> simp
@[simp] theorem State.hold_endLoan : (State.endLoan p s i).hold = s.hold := by unfold State.endLoan; split <;> simp
@[simp] theorem State.settings_endLoan : (State.endLoan p s i).settings = s.settings := by unfold State.endLoan; split <;> simp
@[simp] theorem State.pending_endLoan : (State.endLoan p s i).pending = s.pending := by unfold State.endLoan; split <;> simp
@[simp] theorem State.claimList_endLoan (j : Port) : (State.endLoan p s i).claimList j = s.claimList j := by
  simp only [State.claimList, State.claims_endLoan]
@[simp] theorem State.timer_endLoan (j : SourceNo) : (State.endLoan p s i).timer j = s.timer j := by
  simp only [State.timer, State.timers_endLoan]
@[simp] theorem State.line_endLoan (j : LineNo) : (State.endLoan p s i).line j = s.line j := by
  simp only [State.line, State.lines_endLoan]
@[simp] theorem State.offer_endLoan (j : Port) : (State.endLoan p s i).offer j = s.offer j := by
  simp only [State.offer, State.offers_endLoan]
@[simp] theorem State.link_endLoan (j : Port) : (State.endLoan p s i).link j = s.link j := by
  simp only [State.link, State.links_endLoan]
@[simp] theorem State.inHold_endLoan : (State.endLoan p s i).inHold = s.inHold := by
  simp only [State.inHold, State.hold_endLoan]

end

/-! ## enableSource -/

section

variable (s : State) (i : SourceNo)

@[simp] theorem State.claims_enableSource : (s.enableSource i).claims = s.claims := by unfold State.enableSource; dsimp only; split_ifs <;> simp
@[simp] theorem State.partTime_enableSource : (s.enableSource i).partTime = s.partTime := by unfold State.enableSource; dsimp only; split_ifs <;> simp
@[simp] theorem State.lines_enableSource : (s.enableSource i).lines = s.lines := by unfold State.enableSource; dsimp only; split_ifs <;> simp
@[simp] theorem State.samplerTime_enableSource : (s.enableSource i).samplerTime = s.samplerTime := by unfold State.enableSource; dsimp only; split_ifs <;> simp
@[simp] theorem State.links_enableSource : (s.enableSource i).links = s.links := by unfold State.enableSource; dsimp only; split_ifs <;> simp
@[simp] theorem State.power_enableSource : (s.enableSource i).power = s.power := by unfold State.enableSource; dsimp only; split_ifs <;> simp
@[simp] theorem State.wakingSince_enableSource : (s.enableSource i).wakingSince = s.wakingSince := by unfold State.enableSource; dsimp only; split_ifs <;> simp
@[simp] theorem State.initTime_enableSource : (s.enableSource i).initTime = s.initTime := by unfold State.enableSource; dsimp only; split_ifs <;> simp
@[simp] theorem State.wakeReports_enableSource : (s.enableSource i).wakeReports = s.wakeReports := by unfold State.enableSource; dsimp only; split_ifs <;> simp
@[simp] theorem State.resetnLow_enableSource : (s.enableSource i).resetnLow = s.resetnLow := by unfold State.enableSource; dsimp only; split_ifs <;> simp
@[simp] theorem State.supplyReady_enableSource : (s.enableSource i).supplyReady = s.supplyReady := by unfold State.enableSource; dsimp only; split_ifs <;> simp
@[simp] theorem State.hold_enableSource : (s.enableSource i).hold = s.hold := by unfold State.enableSource; dsimp only; split_ifs <;> simp
@[simp] theorem State.settings_enableSource : (s.enableSource i).settings = s.settings := by unfold State.enableSource; dsimp only; split_ifs <;> simp
@[simp] theorem State.pending_enableSource : (s.enableSource i).pending = s.pending := by unfold State.enableSource; dsimp only; split_ifs <;> simp
@[simp] theorem State.claimList_enableSource (j : Port) : (s.enableSource i).claimList j = s.claimList j := by
  simp only [State.claimList, State.claims_enableSource]
@[simp] theorem State.line_enableSource (j : LineNo) : (s.enableSource i).line j = s.line j := by
  simp only [State.line, State.lines_enableSource]
@[simp] theorem State.link_enableSource (j : Port) : (s.enableSource i).link j = s.link j := by
  simp only [State.link, State.links_enableSource]
@[simp] theorem State.inHold_enableSource : (s.enableSource i).inHold = s.inHold := by
  simp only [State.inHold, State.hold_enableSource]

end

/-! ## withdraw -/

section

variable (s : State) (i : SourceNo)

@[simp] theorem State.claims_withdraw : (s.withdraw i).claims = s.claims := by simp [State.withdraw]
@[simp] theorem State.partTime_withdraw : (s.withdraw i).partTime = s.partTime := by simp [State.withdraw]
@[simp] theorem State.lines_withdraw : (s.withdraw i).lines = s.lines := by simp [State.withdraw]
@[simp] theorem State.samplerTime_withdraw : (s.withdraw i).samplerTime = s.samplerTime := by simp [State.withdraw]
@[simp] theorem State.links_withdraw : (s.withdraw i).links = s.links := by simp [State.withdraw]
@[simp] theorem State.power_withdraw : (s.withdraw i).power = s.power := by simp [State.withdraw]
@[simp] theorem State.wakingSince_withdraw : (s.withdraw i).wakingSince = s.wakingSince := by simp [State.withdraw]
@[simp] theorem State.initTime_withdraw : (s.withdraw i).initTime = s.initTime := by simp [State.withdraw]
@[simp] theorem State.wakeReports_withdraw : (s.withdraw i).wakeReports = s.wakeReports := by simp [State.withdraw]
@[simp] theorem State.resetnLow_withdraw : (s.withdraw i).resetnLow = s.resetnLow := by simp [State.withdraw]
@[simp] theorem State.supplyReady_withdraw : (s.withdraw i).supplyReady = s.supplyReady := by simp [State.withdraw]
@[simp] theorem State.hold_withdraw : (s.withdraw i).hold = s.hold := by simp [State.withdraw]
@[simp] theorem State.settings_withdraw : (s.withdraw i).settings = s.settings := by simp [State.withdraw]
@[simp] theorem State.pending_withdraw : (s.withdraw i).pending = s.pending := by simp [State.withdraw]
@[simp] theorem State.claimList_withdraw (j : Port) : (s.withdraw i).claimList j = s.claimList j := by
  simp only [State.claimList, State.claims_withdraw]
@[simp] theorem State.line_withdraw (j : LineNo) : (s.withdraw i).line j = s.line j := by
  simp only [State.line, State.lines_withdraw]
@[simp] theorem State.link_withdraw (j : Port) : (s.withdraw i).link j = s.link j := by
  simp only [State.link, State.links_withdraw]
@[simp] theorem State.inHold_withdraw : (s.withdraw i).inHold = s.inHold := by
  simp only [State.inHold, State.hold_withdraw]

end

/-! ## disableSource -/

section

variable (s : State) (i : SourceNo)

@[simp] theorem State.claims_disableSource : (s.disableSource i).claims = s.claims := by unfold State.disableSource; dsimp only; split <;> [split <;> simp; rfl]
@[simp] theorem State.partTime_disableSource : (s.disableSource i).partTime = s.partTime := by unfold State.disableSource; dsimp only; split <;> [split <;> simp; rfl]
@[simp] theorem State.lines_disableSource : (s.disableSource i).lines = s.lines := by unfold State.disableSource; dsimp only; split <;> [split <;> simp; rfl]
@[simp] theorem State.samplerTime_disableSource : (s.disableSource i).samplerTime = s.samplerTime := by unfold State.disableSource; dsimp only; split <;> [split <;> simp; rfl]
@[simp] theorem State.links_disableSource : (s.disableSource i).links = s.links := by unfold State.disableSource; dsimp only; split <;> [split <;> simp; rfl]
@[simp] theorem State.power_disableSource : (s.disableSource i).power = s.power := by unfold State.disableSource; dsimp only; split <;> [split <;> simp; rfl]
@[simp] theorem State.wakingSince_disableSource : (s.disableSource i).wakingSince = s.wakingSince := by unfold State.disableSource; dsimp only; split <;> [split <;> simp; rfl]
@[simp] theorem State.initTime_disableSource : (s.disableSource i).initTime = s.initTime := by unfold State.disableSource; dsimp only; split <;> [split <;> simp; rfl]
@[simp] theorem State.wakeReports_disableSource : (s.disableSource i).wakeReports = s.wakeReports := by unfold State.disableSource; dsimp only; split <;> [split <;> simp; rfl]
@[simp] theorem State.resetnLow_disableSource : (s.disableSource i).resetnLow = s.resetnLow := by unfold State.disableSource; dsimp only; split <;> [split <;> simp; rfl]
@[simp] theorem State.supplyReady_disableSource : (s.disableSource i).supplyReady = s.supplyReady := by unfold State.disableSource; dsimp only; split <;> [split <;> simp; rfl]
@[simp] theorem State.hold_disableSource : (s.disableSource i).hold = s.hold := by unfold State.disableSource; dsimp only; split <;> [split <;> simp; rfl]
@[simp] theorem State.settings_disableSource : (s.disableSource i).settings = s.settings := by unfold State.disableSource; dsimp only; split <;> [split <;> simp; rfl]
@[simp] theorem State.pending_disableSource : (s.disableSource i).pending = s.pending := by unfold State.disableSource; dsimp only; split <;> [split <;> simp; rfl]
@[simp] theorem State.claimList_disableSource (j : Port) : (s.disableSource i).claimList j = s.claimList j := by
  simp only [State.claimList, State.claims_disableSource]
@[simp] theorem State.line_disableSource (j : LineNo) : (s.disableSource i).line j = s.line j := by
  simp only [State.line, State.lines_disableSource]
@[simp] theorem State.link_disableSource (j : Port) : (s.disableSource i).link j = s.link j := by
  simp only [State.link, State.links_disableSource]
@[simp] theorem State.inHold_disableSource : (s.disableSource i).inHold = s.inHold := by
  simp only [State.inHold, State.hold_disableSource]

end

/-! ## bindSource -/

section

variable (s : State) (p : Port) (i : SourceNo)

@[simp] theorem State.claims_bindSource : (s.bindSource p i).claims = s.claims := rfl
@[simp] theorem State.timers_bindSource : (s.bindSource p i).timers = s.timers := rfl
@[simp] theorem State.partTime_bindSource : (s.bindSource p i).partTime = s.partTime := rfl
@[simp] theorem State.lines_bindSource : (s.bindSource p i).lines = s.lines := rfl
@[simp] theorem State.samplerTime_bindSource : (s.bindSource p i).samplerTime = s.samplerTime := rfl
@[simp] theorem State.offers_bindSource : (s.bindSource p i).offers = s.offers := rfl
@[simp] theorem State.queues_bindSource : (s.bindSource p i).queues = s.queues := rfl
@[simp] theorem State.links_bindSource : (s.bindSource p i).links = s.links := rfl
@[simp] theorem State.power_bindSource : (s.bindSource p i).power = s.power := rfl
@[simp] theorem State.wakingSince_bindSource : (s.bindSource p i).wakingSince = s.wakingSince := rfl
@[simp] theorem State.initTime_bindSource : (s.bindSource p i).initTime = s.initTime := rfl
@[simp] theorem State.wakeReports_bindSource : (s.bindSource p i).wakeReports = s.wakeReports := rfl
@[simp] theorem State.resetnLow_bindSource : (s.bindSource p i).resetnLow = s.resetnLow := rfl
@[simp] theorem State.supplyReady_bindSource : (s.bindSource p i).supplyReady = s.supplyReady := rfl
@[simp] theorem State.hold_bindSource : (s.bindSource p i).hold = s.hold := rfl
@[simp] theorem State.settings_bindSource : (s.bindSource p i).settings = s.settings := rfl
@[simp] theorem State.pending_bindSource : (s.bindSource p i).pending = s.pending := rfl
@[simp] theorem State.claimList_bindSource (j : Port) : (s.bindSource p i).claimList j = s.claimList j := by
  simp only [State.claimList, State.claims_bindSource]
@[simp] theorem State.timer_bindSource (j : SourceNo) : (s.bindSource p i).timer j = s.timer j := by
  simp only [State.timer, State.timers_bindSource]
@[simp] theorem State.line_bindSource (j : LineNo) : (s.bindSource p i).line j = s.line j := by
  simp only [State.line, State.lines_bindSource]
@[simp] theorem State.offer_bindSource (j : Port) : (s.bindSource p i).offer j = s.offer j := by
  simp only [State.offer, State.offers_bindSource]
@[simp] theorem State.queue_bindSource (j : Port) : (s.bindSource p i).queue j = s.queue j := by
  simp only [State.queue, State.queues_bindSource]
@[simp] theorem State.link_bindSource (j : Port) : (s.bindSource p i).link j = s.link j := by
  simp only [State.link, State.links_bindSource]
@[simp] theorem State.inHold_bindSource : (s.bindSource p i).inHold = s.inHold := by
  simp only [State.inHold, State.hold_bindSource]

end

/-! ## requalifyLine -/

section

variable (s : State) (i : SourceNo) (v : Fin 16)

@[simp] theorem State.sources_requalifyLine : (s.requalifyLine i v).sources = s.sources := by unfold State.requalifyLine; split <;> [split <;> rfl; rfl]
@[simp] theorem State.claims_requalifyLine : (s.requalifyLine i v).claims = s.claims := by unfold State.requalifyLine; split <;> [split <;> rfl; rfl]
@[simp] theorem State.timers_requalifyLine : (s.requalifyLine i v).timers = s.timers := by unfold State.requalifyLine; split <;> [split <;> rfl; rfl]
@[simp] theorem State.partTime_requalifyLine : (s.requalifyLine i v).partTime = s.partTime := by unfold State.requalifyLine; split <;> [split <;> rfl; rfl]
@[simp] theorem State.samplerTime_requalifyLine : (s.requalifyLine i v).samplerTime = s.samplerTime := by unfold State.requalifyLine; split <;> [split <;> rfl; rfl]
@[simp] theorem State.offers_requalifyLine : (s.requalifyLine i v).offers = s.offers := by unfold State.requalifyLine; split <;> [split <;> rfl; rfl]
@[simp] theorem State.queues_requalifyLine : (s.requalifyLine i v).queues = s.queues := by unfold State.requalifyLine; split <;> [split <;> rfl; rfl]
@[simp] theorem State.links_requalifyLine : (s.requalifyLine i v).links = s.links := by unfold State.requalifyLine; split <;> [split <;> rfl; rfl]
@[simp] theorem State.power_requalifyLine : (s.requalifyLine i v).power = s.power := by unfold State.requalifyLine; split <;> [split <;> rfl; rfl]
@[simp] theorem State.wakingSince_requalifyLine : (s.requalifyLine i v).wakingSince = s.wakingSince := by unfold State.requalifyLine; split <;> [split <;> rfl; rfl]
@[simp] theorem State.initTime_requalifyLine : (s.requalifyLine i v).initTime = s.initTime := by unfold State.requalifyLine; split <;> [split <;> rfl; rfl]
@[simp] theorem State.wakeReports_requalifyLine : (s.requalifyLine i v).wakeReports = s.wakeReports := by unfold State.requalifyLine; split <;> [split <;> rfl; rfl]
@[simp] theorem State.resetnLow_requalifyLine : (s.requalifyLine i v).resetnLow = s.resetnLow := by unfold State.requalifyLine; split <;> [split <;> rfl; rfl]
@[simp] theorem State.supplyReady_requalifyLine : (s.requalifyLine i v).supplyReady = s.supplyReady := by unfold State.requalifyLine; split <;> [split <;> rfl; rfl]
@[simp] theorem State.hold_requalifyLine : (s.requalifyLine i v).hold = s.hold := by unfold State.requalifyLine; split <;> [split <;> rfl; rfl]
@[simp] theorem State.settings_requalifyLine : (s.requalifyLine i v).settings = s.settings := by unfold State.requalifyLine; split <;> [split <;> rfl; rfl]
@[simp] theorem State.pending_requalifyLine : (s.requalifyLine i v).pending = s.pending := by unfold State.requalifyLine; split <;> [split <;> rfl; rfl]
@[simp] theorem State.source_requalifyLine (j : SourceNo) : (s.requalifyLine i v).source j = s.source j := by
  simp only [State.source, State.sources_requalifyLine]
@[simp] theorem State.claimList_requalifyLine (j : Port) : (s.requalifyLine i v).claimList j = s.claimList j := by
  simp only [State.claimList, State.claims_requalifyLine]
@[simp] theorem State.timer_requalifyLine (j : SourceNo) : (s.requalifyLine i v).timer j = s.timer j := by
  simp only [State.timer, State.timers_requalifyLine]
@[simp] theorem State.offer_requalifyLine (j : Port) : (s.requalifyLine i v).offer j = s.offer j := by
  simp only [State.offer, State.offers_requalifyLine]
@[simp] theorem State.queue_requalifyLine (j : Port) : (s.requalifyLine i v).queue j = s.queue j := by
  simp only [State.queue, State.queues_requalifyLine]
@[simp] theorem State.link_requalifyLine (j : Port) : (s.requalifyLine i v).link j = s.link j := by
  simp only [State.link, State.links_requalifyLine]
@[simp] theorem State.inHold_requalifyLine : (s.requalifyLine i v).inHold = s.inHold := by
  simp only [State.inHold, State.hold_requalifyLine]

end

/-! ## unbindSource -/

section

variable (s : State) (i : SourceNo)

@[simp] theorem State.claims_unbindSource : (s.unbindSource i).claims = s.claims := by simp [State.unbindSource]
@[simp] theorem State.partTime_unbindSource : (s.unbindSource i).partTime = s.partTime := by simp [State.unbindSource]
@[simp] theorem State.samplerTime_unbindSource : (s.unbindSource i).samplerTime = s.samplerTime := by simp [State.unbindSource]
@[simp] theorem State.queues_unbindSource : (s.unbindSource i).queues = s.queues := by simp [State.unbindSource]
@[simp] theorem State.links_unbindSource : (s.unbindSource i).links = s.links := by simp [State.unbindSource]
@[simp] theorem State.power_unbindSource : (s.unbindSource i).power = s.power := by simp [State.unbindSource]
@[simp] theorem State.wakingSince_unbindSource : (s.unbindSource i).wakingSince = s.wakingSince := by simp [State.unbindSource]
@[simp] theorem State.initTime_unbindSource : (s.unbindSource i).initTime = s.initTime := by simp [State.unbindSource]
@[simp] theorem State.wakeReports_unbindSource : (s.unbindSource i).wakeReports = s.wakeReports := by simp [State.unbindSource]
@[simp] theorem State.resetnLow_unbindSource : (s.unbindSource i).resetnLow = s.resetnLow := by simp [State.unbindSource]
@[simp] theorem State.supplyReady_unbindSource : (s.unbindSource i).supplyReady = s.supplyReady := by simp [State.unbindSource]
@[simp] theorem State.hold_unbindSource : (s.unbindSource i).hold = s.hold := by simp [State.unbindSource]
@[simp] theorem State.settings_unbindSource : (s.unbindSource i).settings = s.settings := by simp [State.unbindSource]
@[simp] theorem State.pending_unbindSource : (s.unbindSource i).pending = s.pending := by simp [State.unbindSource]
@[simp] theorem State.claimList_unbindSource (j : Port) : (s.unbindSource i).claimList j = s.claimList j := by
  simp only [State.claimList, State.claims_unbindSource]
@[simp] theorem State.queue_unbindSource (j : Port) : (s.unbindSource i).queue j = s.queue j := by
  simp only [State.queue, State.queues_unbindSource]
@[simp] theorem State.link_unbindSource (j : Port) : (s.unbindSource i).link j = s.link j := by
  simp only [State.link, State.links_unbindSource]
@[simp] theorem State.inHold_unbindSource : (s.unbindSource i).inHold = s.inHold := by
  simp only [State.inHold, State.hold_unbindSource]

end

/-! ## setBorrower -/

section

variable (s : State) (i : SourceNo) (q : Option Port)

@[simp] theorem State.claims_setBorrower : (s.setBorrower i q).claims = s.claims := by simp [State.setBorrower]
@[simp] theorem State.timers_setBorrower : (s.setBorrower i q).timers = s.timers := by simp [State.setBorrower]
@[simp] theorem State.partTime_setBorrower : (s.setBorrower i q).partTime = s.partTime := by simp [State.setBorrower]
@[simp] theorem State.lines_setBorrower : (s.setBorrower i q).lines = s.lines := by simp [State.setBorrower]
@[simp] theorem State.samplerTime_setBorrower : (s.setBorrower i q).samplerTime = s.samplerTime := by simp [State.setBorrower]
@[simp] theorem State.queues_setBorrower : (s.setBorrower i q).queues = s.queues := by simp [State.setBorrower]
@[simp] theorem State.links_setBorrower : (s.setBorrower i q).links = s.links := by simp [State.setBorrower]
@[simp] theorem State.power_setBorrower : (s.setBorrower i q).power = s.power := by simp [State.setBorrower]
@[simp] theorem State.wakingSince_setBorrower : (s.setBorrower i q).wakingSince = s.wakingSince := by simp [State.setBorrower]
@[simp] theorem State.initTime_setBorrower : (s.setBorrower i q).initTime = s.initTime := by simp [State.setBorrower]
@[simp] theorem State.wakeReports_setBorrower : (s.setBorrower i q).wakeReports = s.wakeReports := by simp [State.setBorrower]
@[simp] theorem State.resetnLow_setBorrower : (s.setBorrower i q).resetnLow = s.resetnLow := by simp [State.setBorrower]
@[simp] theorem State.supplyReady_setBorrower : (s.setBorrower i q).supplyReady = s.supplyReady := by simp [State.setBorrower]
@[simp] theorem State.hold_setBorrower : (s.setBorrower i q).hold = s.hold := by simp [State.setBorrower]
@[simp] theorem State.settings_setBorrower : (s.setBorrower i q).settings = s.settings := by simp [State.setBorrower]
@[simp] theorem State.pending_setBorrower : (s.setBorrower i q).pending = s.pending := by simp [State.setBorrower]
@[simp] theorem State.claimList_setBorrower (j : Port) : (s.setBorrower i q).claimList j = s.claimList j := by
  simp only [State.claimList, State.claims_setBorrower]
@[simp] theorem State.timer_setBorrower (j : SourceNo) : (s.setBorrower i q).timer j = s.timer j := by
  simp only [State.timer, State.timers_setBorrower]
@[simp] theorem State.line_setBorrower (j : LineNo) : (s.setBorrower i q).line j = s.line j := by
  simp only [State.line, State.lines_setBorrower]
@[simp] theorem State.queue_setBorrower (j : Port) : (s.setBorrower i q).queue j = s.queue j := by
  simp only [State.queue, State.queues_setBorrower]
@[simp] theorem State.link_setBorrower (j : Port) : (s.setBorrower i q).link j = s.link j := by
  simp only [State.link, State.links_setBorrower]
@[simp] theorem State.inHold_setBorrower : (s.setBorrower i q).inHold = s.inHold := by
  simp only [State.inHold, State.hold_setBorrower]

end

/-! ## returnSource -/

section

variable (s : State) (p : Port) (i : SourceNo)

@[simp] theorem State.claims_returnSource : (s.returnSource p i).claims = s.claims := by simp [State.returnSource]
@[simp] theorem State.timers_returnSource : (s.returnSource p i).timers = s.timers := by simp [State.returnSource]
@[simp] theorem State.partTime_returnSource : (s.returnSource p i).partTime = s.partTime := by simp [State.returnSource]
@[simp] theorem State.lines_returnSource : (s.returnSource p i).lines = s.lines := by simp [State.returnSource]
@[simp] theorem State.samplerTime_returnSource : (s.returnSource p i).samplerTime = s.samplerTime := by simp [State.returnSource]
@[simp] theorem State.links_returnSource : (s.returnSource p i).links = s.links := by simp [State.returnSource]
@[simp] theorem State.power_returnSource : (s.returnSource p i).power = s.power := by simp [State.returnSource]
@[simp] theorem State.wakingSince_returnSource : (s.returnSource p i).wakingSince = s.wakingSince := by simp [State.returnSource]
@[simp] theorem State.initTime_returnSource : (s.returnSource p i).initTime = s.initTime := by simp [State.returnSource]
@[simp] theorem State.wakeReports_returnSource : (s.returnSource p i).wakeReports = s.wakeReports := by simp [State.returnSource]
@[simp] theorem State.resetnLow_returnSource : (s.returnSource p i).resetnLow = s.resetnLow := by simp [State.returnSource]
@[simp] theorem State.supplyReady_returnSource : (s.returnSource p i).supplyReady = s.supplyReady := by simp [State.returnSource]
@[simp] theorem State.hold_returnSource : (s.returnSource p i).hold = s.hold := by simp [State.returnSource]
@[simp] theorem State.settings_returnSource : (s.returnSource p i).settings = s.settings := by simp [State.returnSource]
@[simp] theorem State.pending_returnSource : (s.returnSource p i).pending = s.pending := by simp [State.returnSource]
@[simp] theorem State.claimList_returnSource (j : Port) : (s.returnSource p i).claimList j = s.claimList j := by
  simp only [State.claimList, State.claims_returnSource]
@[simp] theorem State.timer_returnSource (j : SourceNo) : (s.returnSource p i).timer j = s.timer j := by
  simp only [State.timer, State.timers_returnSource]
@[simp] theorem State.line_returnSource (j : LineNo) : (s.returnSource p i).line j = s.line j := by
  simp only [State.line, State.lines_returnSource]
@[simp] theorem State.link_returnSource (j : Port) : (s.returnSource p i).link j = s.link j := by
  simp only [State.link, State.links_returnSource]
@[simp] theorem State.inHold_returnSource : (s.returnSource p i).inHold = s.inHold := by
  simp only [State.inHold, State.hold_returnSource]

end

/-! ## reportWake -/

section

variable (s : State)

@[simp] theorem State.sources_reportWake : (s.reportWake).sources = s.sources := by unfold State.reportWake; split <;> rfl
@[simp] theorem State.claims_reportWake : (s.reportWake).claims = s.claims := by unfold State.reportWake; split <;> rfl
@[simp] theorem State.timers_reportWake : (s.reportWake).timers = s.timers := by unfold State.reportWake; split <;> rfl
@[simp] theorem State.partTime_reportWake : (s.reportWake).partTime = s.partTime := by unfold State.reportWake; split <;> rfl
@[simp] theorem State.lines_reportWake : (s.reportWake).lines = s.lines := by unfold State.reportWake; split <;> rfl
@[simp] theorem State.samplerTime_reportWake : (s.reportWake).samplerTime = s.samplerTime := by unfold State.reportWake; split <;> rfl
@[simp] theorem State.offers_reportWake : (s.reportWake).offers = s.offers := by unfold State.reportWake; split <;> rfl
@[simp] theorem State.queues_reportWake : (s.reportWake).queues = s.queues := by unfold State.reportWake; split <;> rfl
@[simp] theorem State.links_reportWake : (s.reportWake).links = s.links := by unfold State.reportWake; split <;> rfl
@[simp] theorem State.power_reportWake : (s.reportWake).power = s.power := by unfold State.reportWake; split <;> rfl
@[simp] theorem State.wakingSince_reportWake : (s.reportWake).wakingSince = s.wakingSince := by unfold State.reportWake; split <;> rfl
@[simp] theorem State.initTime_reportWake : (s.reportWake).initTime = s.initTime := by unfold State.reportWake; split <;> rfl
@[simp] theorem State.resetnLow_reportWake : (s.reportWake).resetnLow = s.resetnLow := by unfold State.reportWake; split <;> rfl
@[simp] theorem State.supplyReady_reportWake : (s.reportWake).supplyReady = s.supplyReady := by unfold State.reportWake; split <;> rfl
@[simp] theorem State.hold_reportWake : (s.reportWake).hold = s.hold := by unfold State.reportWake; split <;> rfl
@[simp] theorem State.settings_reportWake : (s.reportWake).settings = s.settings := by unfold State.reportWake; split <;> rfl
@[simp] theorem State.pending_reportWake : (s.reportWake).pending = s.pending := by unfold State.reportWake; split <;> rfl
@[simp] theorem State.source_reportWake (j : SourceNo) : (s.reportWake).source j = s.source j := by
  simp only [State.source, State.sources_reportWake]
@[simp] theorem State.claimList_reportWake (j : Port) : (s.reportWake).claimList j = s.claimList j := by
  simp only [State.claimList, State.claims_reportWake]
@[simp] theorem State.timer_reportWake (j : SourceNo) : (s.reportWake).timer j = s.timer j := by
  simp only [State.timer, State.timers_reportWake]
@[simp] theorem State.line_reportWake (j : LineNo) : (s.reportWake).line j = s.line j := by
  simp only [State.line, State.lines_reportWake]
@[simp] theorem State.offer_reportWake (j : Port) : (s.reportWake).offer j = s.offer j := by
  simp only [State.offer, State.offers_reportWake]
@[simp] theorem State.queue_reportWake (j : Port) : (s.reportWake).queue j = s.queue j := by
  simp only [State.queue, State.queues_reportWake]
@[simp] theorem State.link_reportWake (j : Port) : (s.reportWake).link j = s.link j := by
  simp only [State.link, State.links_reportWake]
@[simp] theorem State.inHold_reportWake : (s.reportWake).inHold = s.inHold := by
  simp only [State.inHold, State.hold_reportWake]

end

/-! ## takeChange -/

section

variable (s : State) (n : LineNo) (e : Edge) (r : List Edge)

@[simp] theorem State.claims_takeChange : (s.takeChange n e r).claims = s.claims := by unfold State.takeChange; dsimp only; split <;> simp
@[simp] theorem State.partTime_takeChange : (s.takeChange n e r).partTime = s.partTime := by unfold State.takeChange; dsimp only; split <;> simp
@[simp] theorem State.samplerTime_takeChange : (s.takeChange n e r).samplerTime = s.samplerTime := by unfold State.takeChange; dsimp only; split <;> simp
@[simp] theorem State.links_takeChange : (s.takeChange n e r).links = s.links := by unfold State.takeChange; dsimp only; split <;> simp
@[simp] theorem State.power_takeChange : (s.takeChange n e r).power = s.power := by unfold State.takeChange; dsimp only; split <;> simp
@[simp] theorem State.wakingSince_takeChange : (s.takeChange n e r).wakingSince = s.wakingSince := by unfold State.takeChange; dsimp only; split <;> simp
@[simp] theorem State.initTime_takeChange : (s.takeChange n e r).initTime = s.initTime := by unfold State.takeChange; dsimp only; split <;> simp
@[simp] theorem State.resetnLow_takeChange : (s.takeChange n e r).resetnLow = s.resetnLow := by unfold State.takeChange; dsimp only; split <;> simp
@[simp] theorem State.supplyReady_takeChange : (s.takeChange n e r).supplyReady = s.supplyReady := by unfold State.takeChange; dsimp only; split <;> simp
@[simp] theorem State.hold_takeChange : (s.takeChange n e r).hold = s.hold := by unfold State.takeChange; dsimp only; split <;> simp
@[simp] theorem State.settings_takeChange : (s.takeChange n e r).settings = s.settings := by unfold State.takeChange; dsimp only; split <;> simp
@[simp] theorem State.pending_takeChange : (s.takeChange n e r).pending = s.pending := by unfold State.takeChange; dsimp only; split <;> simp
@[simp] theorem State.claimList_takeChange (j : Port) : (s.takeChange n e r).claimList j = s.claimList j := by
  simp only [State.claimList, State.claims_takeChange]
@[simp] theorem State.link_takeChange (j : Port) : (s.takeChange n e r).link j = s.link j := by
  simp only [State.link, State.links_takeChange]
@[simp] theorem State.inHold_takeChange : (s.takeChange n e r).inHold = s.inHold := by
  simp only [State.inHold, State.hold_takeChange]

end

/-! ## escalate -/

section

variable (s : State) (i : SourceNo) (n : Time)

@[simp] theorem State.claims_escalate : (s.escalate i n).claims = s.claims := by simp [State.escalate]
@[simp] theorem State.partTime_escalate : (s.escalate i n).partTime = s.partTime := by simp [State.escalate]
@[simp] theorem State.lines_escalate : (s.escalate i n).lines = s.lines := by simp [State.escalate]
@[simp] theorem State.samplerTime_escalate : (s.escalate i n).samplerTime = s.samplerTime := by simp [State.escalate]
@[simp] theorem State.links_escalate : (s.escalate i n).links = s.links := by simp [State.escalate]
@[simp] theorem State.power_escalate : (s.escalate i n).power = s.power := by simp [State.escalate]
@[simp] theorem State.wakingSince_escalate : (s.escalate i n).wakingSince = s.wakingSince := by simp [State.escalate]
@[simp] theorem State.initTime_escalate : (s.escalate i n).initTime = s.initTime := by simp [State.escalate]
@[simp] theorem State.wakeReports_escalate : (s.escalate i n).wakeReports = s.wakeReports := by simp [State.escalate]
@[simp] theorem State.resetnLow_escalate : (s.escalate i n).resetnLow = s.resetnLow := by simp [State.escalate]
@[simp] theorem State.supplyReady_escalate : (s.escalate i n).supplyReady = s.supplyReady := by simp [State.escalate]
@[simp] theorem State.hold_escalate : (s.escalate i n).hold = s.hold := by simp [State.escalate]
@[simp] theorem State.settings_escalate : (s.escalate i n).settings = s.settings := by simp [State.escalate]
@[simp] theorem State.pending_escalate : (s.escalate i n).pending = s.pending := by simp [State.escalate]
@[simp] theorem State.claimList_escalate (j : Port) : (s.escalate i n).claimList j = s.claimList j := by
  simp only [State.claimList, State.claims_escalate]
@[simp] theorem State.line_escalate (j : LineNo) : (s.escalate i n).line j = s.line j := by
  simp only [State.line, State.lines_escalate]
@[simp] theorem State.link_escalate (j : Port) : (s.escalate i n).link j = s.link j := by
  simp only [State.link, State.links_escalate]
@[simp] theorem State.inHold_escalate : (s.escalate i n).inHold = s.inHold := by
  simp only [State.inHold, State.hold_escalate]

end

/-! ## retract -/

section

variable (s : State) (p : Port) (i : SourceNo) (n : Time)

@[simp] theorem State.partTime_retract : (s.retract p i n).partTime = s.partTime := by unfold State.retract; dsimp only; simp only [State.partTime_follow]; split <;> simp
@[simp] theorem State.lines_retract : (s.retract p i n).lines = s.lines := by unfold State.retract; dsimp only; simp only [State.lines_follow]; split <;> simp
@[simp] theorem State.samplerTime_retract : (s.retract p i n).samplerTime = s.samplerTime := by unfold State.retract; dsimp only; simp only [State.samplerTime_follow]; split <;> simp
@[simp] theorem State.links_retract : (s.retract p i n).links = s.links := by unfold State.retract; dsimp only; simp only [State.links_follow]; split <;> simp
@[simp] theorem State.power_retract : (s.retract p i n).power = s.power := by unfold State.retract; dsimp only; simp only [State.power_follow]; split <;> simp
@[simp] theorem State.wakingSince_retract : (s.retract p i n).wakingSince = s.wakingSince := by unfold State.retract; dsimp only; simp only [State.wakingSince_follow]; split <;> simp
@[simp] theorem State.initTime_retract : (s.retract p i n).initTime = s.initTime := by unfold State.retract; dsimp only; simp only [State.initTime_follow]; split <;> simp
@[simp] theorem State.wakeReports_retract : (s.retract p i n).wakeReports = s.wakeReports := by unfold State.retract; dsimp only; simp only [State.wakeReports_follow]; split <;> simp
@[simp] theorem State.resetnLow_retract : (s.retract p i n).resetnLow = s.resetnLow := by unfold State.retract; dsimp only; simp only [State.resetnLow_follow]; split <;> simp
@[simp] theorem State.supplyReady_retract : (s.retract p i n).supplyReady = s.supplyReady := by unfold State.retract; dsimp only; simp only [State.supplyReady_follow]; split <;> simp
@[simp] theorem State.hold_retract : (s.retract p i n).hold = s.hold := by unfold State.retract; dsimp only; simp only [State.hold_follow]; split <;> simp
@[simp] theorem State.settings_retract : (s.retract p i n).settings = s.settings := by unfold State.retract; dsimp only; simp only [State.settings_follow]; split <;> simp
@[simp] theorem State.pending_retract : (s.retract p i n).pending = s.pending := by unfold State.retract; dsimp only; simp only [State.pending_follow]; split <;> simp
@[simp] theorem State.line_retract (j : LineNo) : (s.retract p i n).line j = s.line j := by
  simp only [State.line, State.lines_retract]
@[simp] theorem State.link_retract (j : Port) : (s.retract p i n).link j = s.link j := by
  simp only [State.link, State.links_retract]
@[simp] theorem State.inHold_retract : (s.retract p i n).inHold = s.inHold := by
  simp only [State.inHold, State.hold_retract]

end

/-! ## deliverReached -/

section

variable (s : State)

@[simp] theorem State.sources_deliverReached : (s.deliverReached).sources = s.sources := rfl
@[simp] theorem State.claims_deliverReached : (s.deliverReached).claims = s.claims := rfl
@[simp] theorem State.partTime_deliverReached : (s.deliverReached).partTime = s.partTime := rfl
@[simp] theorem State.lines_deliverReached : (s.deliverReached).lines = s.lines := rfl
@[simp] theorem State.samplerTime_deliverReached : (s.deliverReached).samplerTime = s.samplerTime := rfl
@[simp] theorem State.offers_deliverReached : (s.deliverReached).offers = s.offers := rfl
@[simp] theorem State.queues_deliverReached : (s.deliverReached).queues = s.queues := rfl
@[simp] theorem State.links_deliverReached : (s.deliverReached).links = s.links := rfl
@[simp] theorem State.power_deliverReached : (s.deliverReached).power = s.power := rfl
@[simp] theorem State.wakingSince_deliverReached : (s.deliverReached).wakingSince = s.wakingSince := rfl
@[simp] theorem State.initTime_deliverReached : (s.deliverReached).initTime = s.initTime := rfl
@[simp] theorem State.wakeReports_deliverReached : (s.deliverReached).wakeReports = s.wakeReports := rfl
@[simp] theorem State.resetnLow_deliverReached : (s.deliverReached).resetnLow = s.resetnLow := rfl
@[simp] theorem State.supplyReady_deliverReached : (s.deliverReached).supplyReady = s.supplyReady := rfl
@[simp] theorem State.hold_deliverReached : (s.deliverReached).hold = s.hold := rfl
@[simp] theorem State.settings_deliverReached : (s.deliverReached).settings = s.settings := rfl
@[simp] theorem State.pending_deliverReached : (s.deliverReached).pending = s.pending := rfl
@[simp] theorem State.source_deliverReached (j : SourceNo) : (s.deliverReached).source j = s.source j := by
  simp only [State.source, State.sources_deliverReached]
@[simp] theorem State.claimList_deliverReached (j : Port) : (s.deliverReached).claimList j = s.claimList j := by
  simp only [State.claimList, State.claims_deliverReached]
@[simp] theorem State.line_deliverReached (j : LineNo) : (s.deliverReached).line j = s.line j := by
  simp only [State.line, State.lines_deliverReached]
@[simp] theorem State.offer_deliverReached (j : Port) : (s.deliverReached).offer j = s.offer j := by
  simp only [State.offer, State.offers_deliverReached]
@[simp] theorem State.queue_deliverReached (j : Port) : (s.deliverReached).queue j = s.queue j := by
  simp only [State.queue, State.queues_deliverReached]
@[simp] theorem State.link_deliverReached (j : Port) : (s.deliverReached).link j = s.link j := by
  simp only [State.link, State.links_deliverReached]
@[simp] theorem State.inHold_deliverReached : (s.deliverReached).inHold = s.inHold := by
  simp only [State.inHold, State.hold_deliverReached]

end

/-! ## clearOffers -/

section

variable (s : State) (p : Port)

@[simp] theorem State.sources_clearOffers : (s.clearOffers p).sources = s.sources := rfl
@[simp] theorem State.claims_clearOffers : (s.clearOffers p).claims = s.claims := rfl
@[simp] theorem State.timers_clearOffers : (s.clearOffers p).timers = s.timers := rfl
@[simp] theorem State.partTime_clearOffers : (s.clearOffers p).partTime = s.partTime := rfl
@[simp] theorem State.lines_clearOffers : (s.clearOffers p).lines = s.lines := rfl
@[simp] theorem State.samplerTime_clearOffers : (s.clearOffers p).samplerTime = s.samplerTime := rfl
@[simp] theorem State.queues_clearOffers : (s.clearOffers p).queues = s.queues := rfl
@[simp] theorem State.links_clearOffers : (s.clearOffers p).links = s.links := rfl
@[simp] theorem State.power_clearOffers : (s.clearOffers p).power = s.power := rfl
@[simp] theorem State.wakingSince_clearOffers : (s.clearOffers p).wakingSince = s.wakingSince := rfl
@[simp] theorem State.initTime_clearOffers : (s.clearOffers p).initTime = s.initTime := rfl
@[simp] theorem State.wakeReports_clearOffers : (s.clearOffers p).wakeReports = s.wakeReports := rfl
@[simp] theorem State.resetnLow_clearOffers : (s.clearOffers p).resetnLow = s.resetnLow := rfl
@[simp] theorem State.supplyReady_clearOffers : (s.clearOffers p).supplyReady = s.supplyReady := rfl
@[simp] theorem State.hold_clearOffers : (s.clearOffers p).hold = s.hold := rfl
@[simp] theorem State.settings_clearOffers : (s.clearOffers p).settings = s.settings := rfl
@[simp] theorem State.pending_clearOffers : (s.clearOffers p).pending = s.pending := rfl
@[simp] theorem State.source_clearOffers (j : SourceNo) : (s.clearOffers p).source j = s.source j := by
  simp only [State.source, State.sources_clearOffers]
@[simp] theorem State.claimList_clearOffers (j : Port) : (s.clearOffers p).claimList j = s.claimList j := by
  simp only [State.claimList, State.claims_clearOffers]
@[simp] theorem State.timer_clearOffers (j : SourceNo) : (s.clearOffers p).timer j = s.timer j := by
  simp only [State.timer, State.timers_clearOffers]
@[simp] theorem State.line_clearOffers (j : LineNo) : (s.clearOffers p).line j = s.line j := by
  simp only [State.line, State.lines_clearOffers]
@[simp] theorem State.queue_clearOffers (j : Port) : (s.clearOffers p).queue j = s.queue j := by
  simp only [State.queue, State.queues_clearOffers]
@[simp] theorem State.link_clearOffers (j : Port) : (s.clearOffers p).link j = s.link j := by
  simp only [State.link, State.links_clearOffers]
@[simp] theorem State.inHold_clearOffers : (s.clearOffers p).inHold = s.inHold := by
  simp only [State.inHold, State.hold_clearOffers]

end

end Sys2Proof.Machine
end

