-- ==== Sys2Proof/Laws/Ops.lean ====
section
/-! SUPPORT. For each shared operation, what it does, said once: later proofs cite these and do not unfold it. -/

namespace Sys2Proof.Machine

/-! ## Taking a command -/

theorem State.passes_of_active {s : State} (h : s.power = .active) (code : HostCode) : s.power.passes code = true := by
  rw [h]; rfl

/-- A command that reaches its owner in ACTIVE is taken and its answer kept. -/
theorem State.ownerTakes_of_ready {s : State} {p : Port} {c : Instr} (h : Ready s p c) (code : HostCode) (take : Taking) :
    s.ownerTakes p code c take = (take s).1.answer p (some ((take s).2.answer code)) true := by
  simp only [State.ownerTakes, h.1, State.passes_of_active h.2, if_true]

/-- A command that reaches its owner in a power state that passes it is taken and its answer kept. -/
theorem State.ownerTakes_of_passes {s : State} {p : Port} {c : Instr} {code : HostCode} (h : s.handsOn p c = true)
    (hp : s.power.passes code = true) (take : Taking) :
    s.ownerTakes p code c take = (take s).1.answer p (some ((take s).2.answer code)) true := by
  simp only [State.ownerTakes, h, hp, if_true]

/-- A command that the power state does not pass is refused by it. -/
theorem State.ownerTakes_of_refused {s : State} {p : Port} {c : Instr} {code : HostCode} (h : s.handsOn p c = true)
    (hp : s.power.passes code = false) (take : Taking) :
    s.ownerTakes p code c take = s.refusePower p code := by
  simp [State.ownerTakes, h, hp]

/-- A command that is not handed on changes nothing. -/
theorem State.ownerTakes_of_not {s : State} {p : Port} {c : Instr} {code : HostCode} (h : s.handsOn p c = false)
    (take : Taking) : s.ownerTakes p code c take = s := by
  simp [State.ownerTakes, h]

theorem State.linkTakes_of_passes {s : State} {p : Port} {c : Instr} {code : HostCode} (h : s.handsOn p c = true)
    (hp : s.power.passes code = true) (reply : State → Reply) :
    s.linkTakes p code c reply = s.answer p (some ((reply s).answer code)) false := by
  simp only [State.linkTakes, h, hp, if_true]

theorem State.linkTakes_of_refused {s : State} {p : Port} {c : Instr} {code : HostCode} (h : s.handsOn p c = true)
    (hp : s.power.passes code = false) (reply : State → Reply) :
    s.linkTakes p code c reply = s.refusePower p code := by
  simp [State.linkTakes, h, hp]

theorem State.linkTakes_of_not {s : State} {p : Port} {c : Instr} {code : HostCode} (h : s.handsOn p c = false)
    (reply : State → Reply) : s.linkTakes p code c reply = s := by
  simp [State.linkTakes, h]

theorem State.handsOn_of_hold {s : State} (h : s.inHold = true) (p : Port) (c : Instr) : s.handsOn p c = false := by
  simp [State.handsOn, h]

theorem sourceArg_of {b : Byte} {i : SourceNo} (h : b.toNat = i.val) : sourceArg b = some i := by
  simp [sourceArg, h]

theorem sourceArg_out {b : Byte} (h : 96 ≤ b.toNat) : sourceArg b = none := by
  simp [sourceArg]; omega

theorem onSource_of {b : Byte} {i : SourceNo} (h : b.toNat = i.val) (take : SourceNo → Taking) :
    onSource b take = take i := by
  funext s; simp [onSource, sourceArg_of h]

theorem onSource_out {b : Byte} (h : 96 ≤ b.toNat) (take : SourceNo → Taking) :
    onSource b take = fun s => (s, refuse .badArgument) := by
  funext s; simp [onSource, sourceArg_out h]

/-- The byte that names a source. -/
theorem byteOf_source {b : Byte} {i : SourceNo} (h : b.toNat = i.val) : byteOf i.val = b := by
  rw [← h]; simp [byteOf]

/-- A RETRACTED entry is one that is not HELD. -/
theorem ClaimEntry.not_isHeld (e : ClaimEntry) : (!e.isHeld) = (e.status == .retracted) := by
  cases h : e.status <;> simp [ClaimEntry.isHeld, h]

/-! ## Links -/

/-- The link of the answering port. -/
theorem State.link_answer (s : State) (p : Port) (a : Option Answer) (kept : Bool) :
    (s.answer p a kept).link p = (s.link p).finish s.power a kept := by simp [State.answer]

theorem State.keepsOtherLinks_answer (s : State) (p : Port) (a : Option Answer) (kept : Bool) :
    KeepsOtherLinks p s (s.answer p a kept) := by
  intro q hq; simp [State.answer, Ne.symm hq]

/-! ## Running levels and tops depend on records, claim lists and thresholds alone -/

theorem State.level_congr {s t : State} (h : s.sources = t.sources) : s.level = t.level := by
  funext i; simp [State.level, State.source, h]

theorem State.offered_congr {s t : State} (h : s.sources = t.sources) (hc : s.claims = t.claims)
    (ht : ∀ p, (s.offer p).threshold = (t.offer p).threshold) : s.offered = t.offered := by
  funext p i
  have hl : s.level i = t.level i := congrFun (State.level_congr h) i
  have hr : s.runningLevel p = t.runningLevel p := by simp [State.runningLevel, State.claimList, hc]
  have hs : s.source i = t.source i := by simp [State.source, h]
  rw [State.offered, State.offered, State.admissionBound, State.admissionBound, hl, hr, hs, ht]

theorem State.mostUrgent_congr {s t : State} (h : s.sources = t.sources) : ∀ l, s.mostUrgent l = t.mostUrgent l := by
  intro l
  induction l with
  | nil => rfl
  | cons i rest ih =>
    rw [State.mostUrgent, State.mostUrgent, ih]
    simp only [State.moreUrgent, State.level_congr h]
    rfl

/-- Two states with the same records, claim lists and thresholds have the same tops. -/
theorem State.top_congr {s t : State} (h : s.sources = t.sources) (hc : s.claims = t.claims)
    (ht : ∀ p, (s.offer p).threshold = (t.offer p).threshold) : s.top = t.top := by
  funext p
  simp only [State.top, State.offerSet, State.offered_congr h hc ht, State.mostUrgent_congr h]

/-! ## Following -/

theorem State.offer_follow (before after : State) (p : Port) :
    (State.follow before after).offer p = (after.offer p).follow (before.top p) (after.top p) := by
  simp [State.follow, State.offer]

@[simp] theorem State.threshold_follow (before after : State) (p : Port) :
    ((State.follow before after).offer p).threshold = (after.offer p).threshold := by
  simp [State.offer_follow, OfferPort.follow]

/-- Following changes no top. -/
@[simp] theorem State.top_follow (before after : State) : (State.follow before after).top = after.top :=
  State.top_congr rfl rfl (by simp)

/-- A happening that left the offers as they were, followed. -/
theorem State.flagsFollow_follow {before after : State}
    (h : ∀ p, (after.offer p).lastReported = (before.offer p).lastReported ∧
      (after.offer p).changed = (before.offer p).changed) : FlagsFollow before (State.follow before after) := by
  intro q
  simp only [State.top_follow, State.offer_follow, OfferPort.follow, (h q).1, (h q).2]
  simp [Option.isSome_iff_exists]

theorem State.offersFollow_follow {before after : State} (h : after.offers = before.offers) :
    OffersFollow before (State.follow before after) :=
  ⟨State.flagsFollow_follow fun p => by simp [State.offer, h], fun p => by
    rw [State.threshold_follow, State.offer, State.offer, h]⟩

/-- Following is kept by what touches neither the offers nor what they derive from. -/
theorem FlagsFollow.of_eq {s t u : State} (h : FlagsFollow s t) (ho : u.offers = t.offers) (hs : u.sources = t.sources)
    (hc : u.claims = t.claims) : FlagsFollow s u := by
  have ho' : u.offer = t.offer := by funext p; simp [State.offer, ho]
  have ht : u.top = t.top := State.top_congr hs hc (by simp [ho'])
  simpa only [FlagsFollow, ho', ht] using h

theorem OffersFollow.of_eq {s t u : State} (h : OffersFollow s t) (ho : u.offers = t.offers) (hs : u.sources = t.sources)
    (hc : u.claims = t.claims) : OffersFollow s u :=
  ⟨h.1.of_eq ho hs hc, fun q => by rw [State.offer, ho]; exact h.2 q⟩

/-- Following a happening reads no more of the state before it than the offers and what they derive from. -/
theorem OffersFollow.of_before {s s' t : State} (h : OffersFollow s t) (ho : s'.offers = s.offers)
    (hs : s'.sources = s.sources) (hc : s'.claims = s.claims) : OffersFollow s' t := by
  have ho' : s'.offer = s.offer := by funext p; simp [State.offer, ho]
  have ht : s'.top = s.top := State.top_congr hs hc (by simp [ho'])
  simpa only [OffersFollow, FlagsFollow, ho', ht] using h

/-- A happening on the offers' sources, followed and then answered. -/
theorem State.offersFollow_answer {s t : State} (h : OffersFollow s t) (p : Port) (a : Option Answer) (kept : Bool) :
    OffersFollow s (t.answer p a kept) := h.of_eq (by simp) (by simp) (by simp)

theorem KeepsSurroundings.answer {s t : State} (h : KeepsSurroundings s t) (p : Port) (a : Option Answer) (kept : Bool) :
    KeepsSurroundings s (t.answer p a kept) :=
  ⟨h.1, h.2, h.3, h.4, h.5, h.6, h.7, h.8, h.9, h.10, h.11, h.12⟩

/-- A happening that leaves the links as they were, then answered to port `p`. -/
theorem State.answered_answer {s t : State} (hl : t.links = s.links) (hp : t.power = s.power) (p : Port) (code : HostCode)
    (r : Result) (payload : List Byte) :
    Answered p code r payload s (t.answer p (some ⟨code.byte, r, payload⟩) true) ∧
      KeepsOtherLinks p s (t.answer p (some ⟨code.byte, r, payload⟩) true) := by
  have h : ∀ q, t.link q = s.link q := fun q => by simp [State.link, hl]
  refine ⟨by simp [Answered, State.answer, h, hp], fun q hq => ?_⟩
  simp [State.answer, Ne.symm hq, h]

/-! ## Timers -/

theorem State.timer_startTimer (s : State) (i j : SourceNo) (k : TimerKind) (l : Half) :
    (s.startTimer i k l).timer j = if i = j then timerFrom s.partTime k l else s.timer j := by
  unfold State.startTimer timerFrom
  split <;> simp

@[simp] theorem State.timer_stopTimer (s : State) (i j : SourceNo) :
    (s.stopTimer i).timer j = if i = j then none else s.timer j := by
  simp [State.stopTimer]

/-! ## Incidents and counts -/

/-- Where an incident goes. -/
theorem State.queue_writeIncident (s : State) (k : IncidentKind) (i : SourceNo) (o : Option Port) (d : Byte) (n : Time)
    (q : Port) :
    (s.writeIncident k i o d n).queue q =
      if (s.source i).binder = some q then (s.queue q).push ⟨k, i, o, d, n⟩ else s.queue q := by
  unfold State.writeIncident
  split
  · rename_i b hb
    by_cases h : b = q
    · subst h; simp [hb]
    · simp [hb, h]
  · rename_i hb; simp [hb]

theorem State.source_raiseCount (s : State) (i j : SourceNo) (n : Time) :
    (s.raiseCount i n).source j = if i = j then { s.source i with count := raisedCount (s.source i).count }
      else s.source j := by
  unfold State.raiseCount raisedCount
  dsimp only
  by_cases h : i = j
  · subst h; split <;> [split <;> simp_all; simp_all]
  · split <;> [split <;> simp [h]; simp]

theorem State.saturation_raiseCount (s : State) (i : SourceNo) (n : Time) :
    SaturationWritten i n s (s.raiseCount i n) := by
  intro q
  unfold State.raiseCount
  dsimp only
  by_cases h : (s.source i).count = 14
  · simp [h, State.queue_writeIncident]
  · split
    · rw [if_neg (by simp only [Config.maxCount]; omega)]
      simp [h]
    · simp [h]

theorem State.source_makePending (s : State) (i j : SourceNo) (c : Nat) :
    (s.makePending i c).source j = if i = j then { s.source i with state := .pending, count := c } else s.source j := by
  simp [State.makePending]

theorem State.timer_makePending (s : State) (i j : SourceNo) (c : Nat) :
    (s.makePending i c).timer j = if i = j then timerFrom s.partTime .wait (s.source i).waitLimit else s.timer j := by
  simp [State.makePending, State.timer_startTimer]

theorem State.source_makeQuiet (s : State) (i j : SourceNo) :
    (s.makeQuiet i).source j = if i = j then { s.source i with state := .quiet, count := 0 } else s.source j := by
  simp [State.makeQuiet]

/-- What taking an event does. -/
theorem State.eventTaken_takeEvent (s : State) (i : SourceNo) :
    EventTaken i s (s.takeEvent i) ∧ KeepsOtherSources i s (s.takeEvent i) := by
  unfold State.takeEvent
  split
  · rename_i h
    refine ⟨⟨fun _ => ⟨by simp [State.source_makePending], by simp [State.timer_makePending], by simp⟩,
      fun h' => absurd h h'⟩, fun j hj => ?_⟩
    simp [State.source_makePending, State.timer_makePending, Ne.symm hj]
  all_goals
    rename_i h
    refine ⟨⟨fun h' => by simp [h] at h', fun _ => ⟨by simp [State.source_raiseCount], by simp,
      State.saturation_raiseCount _ _ _⟩⟩, fun j hj => ?_⟩
    simp [State.source_raiseCount, Ne.symm hj]

/-! ## Claims given back -/

/-- What giving back a claim does to its source. -/
theorem State.source_returnClaim (s : State) (i j : SourceNo) :
    (s.returnClaim i).source j =
      if i = j then
        (if (s.source i).enabled then { s.source i with state := .pending, count := raisedCount (s.source i).count }
        else { s.source i with state := .quiet, count := 0 })
      else s.source j := by
  unfold State.returnClaim
  dsimp only
  by_cases h : i = j
  · subst h; split <;> simp_all [State.source_makePending, State.source_raiseCount, State.source_makeQuiet]
  · split <;> simp_all [State.source_makePending, State.source_raiseCount, State.source_makeQuiet]

theorem State.timer_returnClaim (s : State) (i j : SourceNo) :
    (s.returnClaim i).timer j =
      if i = j then
        (if (s.source i).enabled then timerFrom s.partTime .wait (s.source i).waitLimit else none)
      else s.timer j := by
  unfold State.returnClaim
  dsimp only
  by_cases h : i = j
  · subst h; split <;> simp_all [State.timer_makePending, State.source_raiseCount]
  · split <;> simp_all [State.timer_makePending]

theorem State.queue_returnClaim (s : State) (i : SourceNo) (q : Port) :
    (s.returnClaim i).queue q =
      if (s.source i).enabled = true ∧ (s.source i).binder = some q ∧ (s.source i).count = 14 then
        (s.queue q).push ⟨.countSaturated, i, none, 0#8, s.partTime⟩
      else s.queue q := by
  have h := State.saturation_raiseCount (s.stopTimer i) i s.partTime q
  simp only [State.source_stopTimer, State.queue_stopTimer] at h
  unfold State.returnClaim
  dsimp only
  split <;> simp_all

/-! ## Expiries -/

@[simp] theorem State.timer_deliverReached (s : State) (i : SourceNo) :
    s.deliverReached.timer i = (s.timer i).map fun x => { x with delivered := x.expired s.partTime } := by
  simp [State.deliverReached, State.timer]

@[simp] theorem State.anyHeld_deliverReached (s : State) : s.deliverReached.anyHeld = s.anyHeld := rfl

@[simp] theorem State.anyClearing_deliverReached (s : State) : s.deliverReached.anyClearing = s.anyClearing := rfl

/-- With 1 to 65535 µs remaining a timer has not been reached (R106). -/
theorem Timer.reached_eq_false {x : Timer} {now : Time} (h1 : 1 ≤ (x.expiry - now).toNat)
    (h2 : (x.expiry - now).toNat ≤ 65535) : x.reached now = false := by
  unfold Timer.reached
  simp only [Bool.or_eq_false_iff, beq_eq_false_iff_ne, decide_eq_false_iff_not]
  omega

/-- At its expiry time a timer has been reached (R105). -/
theorem Timer.reached_of_eq {x : Timer} {now : Time} (h : x.expiry = now) : x.reached now = true := by
  simp [Timer.reached, h]

/-- What an expiry that can be taken is: the source's timer, of that kind, delivered, while part time runs. -/
theorem State.expiryOf_eq_some {s : State} {i : SourceNo} {kind : TimerKind} {x : Timer} :
    s.expiryOf i kind = some x ↔
      s.timer i = some x ∧ s.partTimeRuns = true ∧ x.expired s.partTime = true ∧ x.kind = kind := by
  unfold State.expiryOf
  cases s.timer i with
  | none => simp
  | some y =>
    simp only [Option.some.injEq]
    constructor
    · intro h
      split at h
      · cases h; simp_all
      · cases h
    · rintro ⟨rfl, h⟩
      simp [h]

/-! ## Lines and clearings -/

@[simp] theorem State.line_mapLines (s : State) (f : LineNo → Line → Line) (n : LineNo) :
    (s.mapLines f).line n = f n (s.line n) := by simp [State.mapLines, State.line]

theorem State.line_clear (s : State) (settings : Settings) (power : PowerState) (n : LineNo) :
    (s.clear settings power).line n = (s.line n).clear := by simp [State.clear, State.line]

theorem State.link_clear (s : State) (settings : Settings) (power : PowerState) (p : Port) :
    (s.clear settings power).link p = (s.link p).cut := by simp [State.clear, State.link]

/-- The links after a clearing that a command of port `p` causes. -/
theorem State.link_clearFor (s : State) (p q : Port) (code : HostCode) (settings : Settings) (power : PowerState)
    (store : Option Answer) :
    (s.clearFor p code settings power store).link q =
      if p = q then (s.link p).cutIssuer ((okWith []).answer code) store else (s.link q).cut := by
  simp [State.clearFor, State.link_clear]

/-! ## The checks of WATCH and DORMANT -/

theorem State.anyHeld_iff (s : State) : s.anyHeld = true ↔ ∃ q, ∃ e ∈ s.claimList q, e.status = .held := by
  simp [State.anyHeld, ClaimEntry.isHeld]

theorem State.anyClearing_iff (s : State) : s.anyClearing = true ↔ ∃ q, (s.link q).clearing ≠ .idle := by
  simp [State.anyClearing]

end Sys2Proof.Machine
end

