-- ==== Sys2Proof/Laws/Clear.lean ====
section
/-! SUPPORT. What the Source Table's part of a port clear does to every record, timer, queue and list, said once. -/

namespace Sys2Proof.Machine

theorem KeepsSurroundings.trans {s t u : State} (h : KeepsSurroundings s t) (k : KeepsSurroundings t u) :
    KeepsSurroundings s u :=
  ⟨k.1.trans h.1, k.2.trans h.2, k.3.trans h.3, k.4.trans h.4, k.5.trans h.5, k.6.trans h.6, k.7.trans h.7,
    k.8.trans h.8, k.9.trans h.9, k.10.trans h.10, k.11.trans h.11, k.12.trans h.12⟩

/-! ## One entry of the list (R98) -/

/-- A record whose claim a port clear gives back. -/
def releasedRecord (r : SourceRec) : SourceRec :=
  if r.enabled then { r with state := .pending, count := raisedCount r.count }
  else { r with state := .quiet, count := 0 }

/-- The timer of a record whose claim a port clear gives back at part time `now`. -/
def releasedTimer (now : Time) (r : SourceRec) : Option Timer :=
  if r.enabled then timerFrom now .wait r.waitLimit else none

/-- The incidents that one entry of the cleared list writes to port `q`'s queue. -/
def releaseIncidents (s : State) (p q : Port) (e : ClaimEntry) : List Incident :=
  if e.isHeld = true ∧ (s.source e.source).binder = some q then
    ⟨.released, e.source, some p, 0#8, s.partTime⟩ ::
      (if (s.source e.source).enabled ∧ (s.source e.source).count = 14 then
        [⟨.countSaturated, e.source, none, 0#8, s.partTime⟩] else [])
  else []

theorem State.source_releaseEntry_eq (p : Port) (s : State) (e : ClaimEntry) (j : SourceNo) :
    (State.releaseEntry p s e).source j =
      if e.isHeld = true ∧ e.source = j then releasedRecord (s.source j) else s.source j := by
  unfold State.releaseEntry releasedRecord
  by_cases h : e.isHeld = true
  · simp only [h, if_true, true_and, State.source_returnClaim, State.source_writeIncident]
    by_cases hj : e.source = j <;> [subst hj; skip] <;> simp_all
  · simp [h]

theorem State.timer_releaseEntry_eq (p : Port) (s : State) (e : ClaimEntry) (j : SourceNo) :
    (State.releaseEntry p s e).timer j =
      if e.isHeld = true ∧ e.source = j then releasedTimer s.partTime (s.source j) else s.timer j := by
  unfold State.releaseEntry releasedTimer
  by_cases h : e.isHeld = true
  · simp only [h, if_true, true_and, State.timer_returnClaim, State.source_writeIncident]
    by_cases hj : e.source = j <;> [subst hj; skip] <;> simp_all
  · simp [h]

theorem State.queue_releaseEntry_eq (p q : Port) (s : State) (e : ClaimEntry) :
    (State.releaseEntry p s e).queue q = (releaseIncidents s p q e).foldl IncidentQueue.push (s.queue q) := by
  unfold State.releaseEntry releaseIncidents
  by_cases h : e.isHeld = true
  · simp only [h, if_true, true_and, State.queue_returnClaim, State.source_writeIncident,
      State.queue_writeIncident, State.partTime_writeIncident]
    by_cases hq : (s.source e.source).binder = some q
    · by_cases hc : (s.source e.source).enabled = true ∧ (s.source e.source).count = 14 <;> simp [hq, hc]
    · simp [hq]
  · simp [h]

theorem State.keepsSurroundings_releaseEntry (p : Port) (s : State) (e : ClaimEntry) :
    KeepsSurroundings s (State.releaseEntry p s e) := by
  constructor <;> simp

/-! ## The whole list -/

/-- The part after going through a list of entries that names no source twice. -/
structure EntriesReleased (p : Port) (l : List ClaimEntry) (s t : State) : Prop where
  source : ∀ i, t.source i =
    if ∃ e ∈ l, e.source = i ∧ e.isHeld = true then releasedRecord (s.source i) else s.source i
  timer : ∀ i, t.timer i =
    if ∃ e ∈ l, e.source = i ∧ e.isHeld = true then releasedTimer s.partTime (s.source i) else s.timer i
  queue : ∀ q, t.queue q = (l.flatMap (releaseIncidents s p q)).foldl IncidentQueue.push (s.queue q)
  surroundings : KeepsSurroundings s t
  links : t.links = s.links
  offers : t.offers = s.offers
  claims : t.claims = s.claims

theorem State.entriesReleased (p : Port) : ∀ (l : List ClaimEntry) (s : State), (l.map (·.source)).Nodup →
    EntriesReleased p l s (l.foldl (State.releaseEntry p) s) := by
  intro l
  induction l with
  | nil => intro s _; exact ⟨by simp, by simp, by simp, by constructor <;> rfl, rfl, rfl, rfl⟩
  | cons e l ih =>
    intro s hn
    simp only [List.map_cons, List.nodup_cons] at hn
    have k := ih (State.releaseEntry p s e) hn.2
    have other : ∀ x ∈ l, x.source ≠ e.source := fun x hx he => hn.1 (List.mem_map.2 ⟨x, hx, he⟩)
    have now : (State.releaseEntry p s e).partTime = s.partTime := by simp
    have here : (∃ x ∈ e :: l, x.source = e.source ∧ x.isHeld = true) ↔ e.isHeld = true := by
      constructor
      · rintro ⟨x, hx, hs, hh⟩
        rcases List.mem_cons.1 hx with rfl | hx
        · exact hh
        · exact absurd hs (other x hx)
      · exact fun h => ⟨e, by simp, rfl, h⟩
    have none : ¬∃ x ∈ l, x.source = e.source ∧ x.isHeld = true := fun ⟨x, hx, hh⟩ => other x hx hh.1
    rw [List.foldl_cons]
    refine ⟨fun i => ?_, fun i => ?_, fun q => ?_, ?_, ?_, ?_, ?_⟩
    · rw [k.source, State.source_releaseEntry_eq]
      by_cases hi : e.source = i
      · subst hi
        simp only [if_neg none, here, and_true]
      · simp [hi]
    · rw [k.timer, State.timer_releaseEntry_eq, State.source_releaseEntry_eq, now]
      by_cases hi : e.source = i
      · subst hi
        simp only [if_neg none, here, and_true]
      · simp [hi]
    · rw [k.queue, State.queue_releaseEntry_eq, List.flatMap_cons, List.foldl_append]
      refine congrArg (List.foldl IncidentQueue.push _) (List.flatMap_congr fun x hx => ?_)
      have same : (State.releaseEntry p s e).source x.source = s.source x.source := by
        rw [State.source_releaseEntry_eq, if_neg fun h => other x hx h.2.symm]
      simp only [releaseIncidents, same, now]
    · exact (State.keepsSurroundings_releaseEntry p s e).trans k.surroundings
    · rw [k.links]; simp
    · rw [k.offers]; simp
    · rw [k.claims]; simp

/-! ## The loans (R40) -/

/-- A record with its loan to the cleared port, if it has one, ended. -/
def unlentRecord (p : Port) (r : SourceRec) : SourceRec :=
  { r with borrower := if r.borrower = some p then none else r.borrower }

/-- The incident that one source of the second step writes to port `q`'s queue. -/
def loanIncidents (s : State) (p q : Port) (i : SourceNo) : List Incident :=
  if (s.source i).borrower = some p ∧ (s.source i).binder = some q then
    [⟨.loanEnded, i, some p, 2#8, s.partTime⟩]
  else []

theorem State.source_endLoan_eq (p : Port) (s : State) (i j : SourceNo) :
    (State.endLoan p s i).source j = if i = j then unlentRecord p (s.source j) else s.source j := by
  unfold State.endLoan unlentRecord
  split <;> rename_i h <;> by_cases hj : i = j <;> [subst hj; skip; subst hj; skip] <;> simp [*]

theorem State.queue_endLoan_eq (p q : Port) (s : State) (i : SourceNo) :
    (State.endLoan p s i).queue q = (loanIncidents s p q i).foldl IncidentQueue.push (s.queue q) := by
  unfold State.endLoan loanIncidents
  split
  · rename_i h
    simp only [State.queue_writeIncident, State.source_setSource, if_true, h, true_and]
    split <;> simp
  · rename_i h; simp [h]

theorem State.keepsSurroundings_endLoan (p : Port) (s : State) (i : SourceNo) :
    KeepsSurroundings s (State.endLoan p s i) := by
  constructor <;> simp

/-- The part after going through a list of distinct sources. -/
structure LoansEnded (p : Port) (l : List SourceNo) (s t : State) : Prop where
  source : ∀ i, t.source i = if i ∈ l then unlentRecord p (s.source i) else s.source i
  queue : ∀ q, t.queue q = (l.flatMap (loanIncidents s p q)).foldl IncidentQueue.push (s.queue q)
  surroundings : KeepsSurroundings s t
  links : t.links = s.links
  offers : t.offers = s.offers
  claims : t.claims = s.claims
  timers : t.timers = s.timers

theorem State.loansEnded (p : Port) : ∀ (l : List SourceNo) (s : State), l.Nodup →
    LoansEnded p l s (l.foldl (State.endLoan p) s) := by
  intro l
  induction l with
  | nil => intro s _; exact ⟨by simp, by simp, by constructor <;> rfl, rfl, rfl, rfl, rfl⟩
  | cons e l ih =>
    intro s hn
    simp only [List.nodup_cons] at hn
    have k := ih (State.endLoan p s e) hn.2
    rw [List.foldl_cons]
    refine ⟨fun i => ?_, fun q => ?_, ?_, ?_, ?_, ?_, ?_⟩
    · rw [k.source, State.source_endLoan_eq]
      by_cases hi : e = i
      · subst hi; simp [hn.1]
      · simp [hi, Ne.symm hi]
    · rw [k.queue, State.queue_endLoan_eq, List.flatMap_cons, List.foldl_append]
      refine congrArg (List.foldl IncidentQueue.push _) (List.flatMap_congr fun x hx => ?_)
      have same : (State.endLoan p s e).source x = s.source x := by
        have apart : e ≠ x := by rintro rfl; exact hn.1 hx
        rw [State.source_endLoan_eq, if_neg apart]
      simp [loanIncidents, same]
    · exact (State.keepsSurroundings_endLoan p s e).trans k.surroundings
    · rw [k.links]; simp
    · rw [k.offers]; simp
    · rw [k.claims]; simp
    · rw [k.timers]; simp

/-! ## Both steps -/

theorem flatMap_eq_filter {α β : Type} (l : List α) (c : α → Bool) (f g : α → List β)
    (h : ∀ x, f x = if c x then g x else []) : l.flatMap f = (l.filter c).flatMap g := by
  induction l with
  | nil => rfl
  | cons a l ih => rw [List.flatMap_cons, h, ih]; by_cases hc : c a <;> simp [hc]

/-- The part after the Source Table's part of the port clear of `p`. -/
structure TableCleared (p : Port) (s t : State) : Prop where
  source : ∀ i, t.source i = unlentRecord p
    (if ∃ e ∈ s.claimList p, e.source = i ∧ e.isHeld = true then releasedRecord (s.source i) else s.source i)
  timer : ∀ i, t.timer i =
    if ∃ e ∈ s.claimList p, e.source = i ∧ e.isHeld = true then releasedTimer s.partTime (s.source i) else s.timer i
  queue : ∀ q, t.queue q = (clearIncidents s p q).foldl IncidentQueue.push (s.queue q)
  surroundings : KeepsSurroundings s t
  links : t.links = s.links
  offers : OffersFollow s t
  emptied : t.claimList p = []
  otherLists : ∀ q, q ≠ p → t.claimList q = s.claimList q

theorem State.tableCleared (p : Port) (s : State) (hn : ((s.claimList p).map (·.source)).Nodup) :
    TableCleared p s (s.clearTable p) := by
  have a := State.entriesReleased p (s.claimList p) s hn
  have b := State.loansEnded p (List.finRange 96) (s.releaseClaims p) (List.nodup_finRange 96)
  have released : s.releaseClaims p = ((s.claimList p).foldl (State.releaseEntry p) s).setClaimList p [] := rfl
  generalize hF : (List.finRange 96).foldl (State.endLoan p) (s.releaseClaims p) = F at b
  have whole : s.clearTable p = State.follow s F := by rw [State.clearTable, State.endLoans, hF]
  have now : (s.releaseClaims p).partTime = s.partTime := a.surroundings.partTime
  have kept : KeepsSurroundings s (s.releaseClaims p) :=
    ⟨a.4.1, a.4.2, a.4.3, a.4.4, a.4.5, a.4.6, a.4.7, a.4.8, a.4.9, a.4.10, a.4.11, a.4.12⟩
  have both := kept.trans b.surroundings
  rw [whole]
  refine ⟨fun i => ?_, fun i => ?_, fun q => ?_, ?_, ?_, ?_, ?_, fun q hq => ?_⟩
  · rw [State.source_follow, b.source, if_pos (List.mem_finRange _), released, State.source_setClaimList, a.source]
  · rw [State.timer_follow, State.timer, b.timers, ← State.timer, released, State.timer_setClaimList, a.timer]
  · rw [State.queue_follow, b.queue, released, State.queue_setClaimList, a.queue, ← List.foldl_append]
    refine congrArg (List.foldl IncidentQueue.push (s.queue q)) ?_
    unfold clearIncidents
    refine congrArg₂ (· ++ ·) ?_ ?_
    · exact flatMap_eq_filter _ _ _ _ fun e => by simp [releaseIncidents]
    · rw [List.map_eq_flatMap, ← released]
      refine flatMap_eq_filter _ _ _ _ fun i => ?_
      have fields : ∀ r : SourceRec, (releasedRecord r).borrower = r.borrower ∧ (releasedRecord r).binder = r.binder := by
        intro r; unfold releasedRecord; split <;> simp
      simp only [loanIncidents, released, State.source_setClaimList, a.source]
      split <;> simp_all
  · exact ⟨both.1, both.2, both.3, both.4, both.5, both.6, both.7, both.8, both.9, both.10, both.11, both.12⟩
  · exact b.links.trans a.links
  · exact State.offersFollow_follow (b.offers.trans a.offers)
  · rw [State.claimList_follow, State.claimList, b.claims, ← State.claimList, released, State.claimList_setClaimList,
      if_pos rfl]
  · rw [State.claimList_follow, State.claimList, b.claims, ← State.claimList, released, State.claimList_setClaimList,
      if_neg (Ne.symm hq), State.claimList, a.claims, ← State.claimList]

end Sys2Proof.Machine
end

