-- ==== Sys2Proof/Laws/Invariants.lean ====
section
/-! SUPPORT. What a step can do to the part, said once: a property that every operation keeps is kept by every step. -/

namespace Sys2Proof.Machine

/-- A Link Interface may become this one in the part: a port clear begins in ACTIVE alone, and where no command waited
behind no command in hand, none does now. -/
structure LinkMove (s : State) (p : Port) (l : Link) : Prop where
  clearing : (s.link p).clearing = .idle → l.clearing = .idle ∨ s.power = .active
  waiting : ((s.link p).inHand = none → (s.link p).waiting = none) → l.inHand = none → l.waiting = none

/-- A property that every operation of the commands keeps, each in the conditions it is used in. -/
structure KeptByOperations (P : State → Prop) : Prop where
  pending : ∀ s l, P s → P { s with pending := l }
  setLink : ∀ s p l, P s → LinkMove s p l → P (s.setLink p l)
  setLine : ∀ s n l, P s → s.sampled n = true ∨ l = { s.line n with pin := l.pin } → P (s.setLine n l)
  top : ∀ s p, P s → s.power = .active →
    P (s.setOffer p { s.offer p with lastReported := s.top p, changed := false })
  threshold : ∀ s p v, P s → s.power = .active →
    P (State.follow s (s.setOffer p { s.offer p with threshold := v }))
  claim : ∀ s p i, P s → s.power = .active → s.offered p i = true → s.fullFor p i = false → P (s.takeClaim p i)
  complete : ∀ s p i e, P s → s.power = .active → s.entryOf p i = some e → e.isHeld = true → P (s.completeClaim p i)
  lost : ∀ s p i, P s → s.power = .active → P (s.dropLost p i)
  defer : ∀ s p i e, P s → s.power = .active → s.entryOf p i = some e → e.isHeld = true → P (s.deferClaim p i)
  post : ∀ s i, P s → s.power = .active → (s.source i).enabled = true → P (State.follow s (s.takeEvent i))
  bind : ∀ s p i, P s → s.power = .active → (s.source i).binder = none → P (s.bindSource p i)
  unbind : ∀ s i, P s → s.power = .active → (s.source i).state.claimant = none → P (s.unbindSource i)
  lend : ∀ s p q i, P s → s.power = .active → (s.source i).binder = some p → q ≠ p → P (s.setBorrower i (some q))
  recallLoan : ∀ s i, P s → s.power = .active → P (s.setBorrower i none)
  returnLoan : ∀ s p i, P s → s.power = .active → P (s.returnSource p i)
  priority : ∀ s p i v, P s → s.power = .active → (s.source i).binder = some p → P (s.writePriority i v)
  group : ∀ s p i v, P s → s.power = .active → (s.source i).binder = some p → P (s.writeGroup i v)
  trigger : ∀ s p i v, P s → s.power = .active → isPosted i = false → (s.source i).binder = some p →
    P (s.writeTrigger i v)
  qualify : ∀ s p i v, P s → s.power = .active → isPosted i = false → (s.source i).binder = some p →
    P (s.writeQualify i v)
  waitLimit : ∀ s p i v, P s → s.power = .active → (s.source i).binder = some p → P (s.writeWaitLimit i v)
  serviceLimit : ∀ s p i v, P s → s.power = .active → (s.source i).binder = some p → P (s.writeServiceLimit i v)
  fallback : ∀ s p i v, P s → s.power = .active → (s.source i).binder = some p → P (s.writeFallback i v)
  posters : ∀ s p i v, P s → s.power = .active → isPosted i = true → (s.source i).binder = some p →
    P (s.writePosters i v)
  enable : ∀ s p i, P s → s.power = .active → (s.source i).binder = some p → P (s.enableSource i)
  disable : ∀ s p i, P s → s.power = .active → (s.source i).binder = some p → P (s.disableSource i)
  readIncident : ∀ s p r rest, P s → s.power = .active → (s.queue p).records = r :: rest →
    P (s.setQueue p ⟨rest, (s.queue p).overflow && !rest.isEmpty⟩)
  emptyQueue : ∀ s p, P s → s.power = .active → P (s.setQueue p IncidentQueue.default)
  clearOffers : ∀ s p, P s → (s.link p).clearing = .offerUnitNext → P (s.clearOffers p)
  clearTable : ∀ s p, P s → (s.link p).clearing = .sourceTableNext → P (s.clearTable p)
  settings : ∀ s t, P s → s.power = .active → t.controlSet = s.settings.controlSet ∨ t.controlSet ≠ 0#4 →
    P { s with settings := t }
  watch : ∀ s, P s → s.power = .active → s.anyHeld = false → s.anyClearing = false →
    P { s.freezeLines with power := .watch }
  startWaking : ∀ s, P s → s.power = .watch → P s.startWaking
  wakingEnd : ∀ s, P s → s.power = .waking → P { s with power := .active }
  clear : ∀ s t power, P s → t.controlSet = s.settings.controlSet ∨ t.controlSet ≠ 0#4 →
    power = .init ∨ power = .dormant ∧ s.inHold = false → P (s.clear t power)
  pins : ∀ s a b, P s → P { s with resetnLow := a, supplyReady := b }
  hold : ∀ s h, P s → s.power = .init → P { s with hold := h }
  takeChange : ∀ s n e rest, P s → s.sampled n = true → P (s.takeChange n e rest)
  wakeReports : ∀ s k, P s → P { s with wakeReports := k }
  deliver : ∀ s i t, P s → s.timer i = some t → P (s.setTimer i (some { t with delivered := true }))
  deliverReached : ∀ s, P s → P s.deliverReached
  stopTimer : ∀ s i, P s → P (s.stopTimer i)
  escalate : ∀ s i time, P s → s.partTimeRuns = true → (s.source i).state = .pending → P (s.escalate i time)
  retract : ∀ s p i time, P s → s.partTimeRuns = true → (s.source i).state = .claimed p → P (s.retract p i time)
  enterActive : ∀ s, P s → s.power = .init → s.inHold = false → P s.enterActive
  enterFailed : ∀ s b, P s → s.power = .init → s.inHold = false → P (s.enterFailed b)
  counters : ∀ s a b c, P s → c = s.partTime ∨ s.partTimeRuns = true →
    P { s with samplerTime := a, initTime := b, partTime := c }

/-- Settling begins no port clear and leaves no command waiting behind none. -/
theorem Link.settle_facts (l : Link) (power : PowerState) :
    (l.settle power).clearing = l.clearing ∧
      ((l.inHand = none → l.waiting = none) → (l.settle power).inHand = none → (l.settle power).waiting = none) := by
  unfold Link.settle
  split
  · split
    · unfold Link.refuseIdentifier
      split <;> exact ⟨rfl, fun _ _ => rfl⟩
    · exact ⟨rfl, fun h => h⟩
  · exact ⟨rfl, fun h => h⟩

/-- Nor does finishing. -/
theorem Link.finish_facts (l : Link) (power : PowerState) (a : Option Answer) (kept : Bool) :
    (l.finish power a kept).clearing = l.clearing ∧
      ((l.finish power a kept).inHand = none → (l.finish power a kept).waiting = none) := by
  unfold Link.finish
  refine ⟨(Link.settle_facts _ _).1.trans ?_, (Link.settle_facts _ _).2 fun _ => ?_⟩ <;>
    (split <;> [split <;> rfl; rfl])

namespace KeptByOperations

variable {P : State → Prop} (k : KeptByOperations P)

include k

theorem answer {s : State} (h : P s) (p : Port) (a : Option Answer) (kept : Bool) : P (s.answer p a kept) :=
  k.setLink _ _ _ h ⟨fun hc => .inl ((Link.finish_facts _ _ _ _).1.trans hc), fun _ => (Link.finish_facts _ _ _ _).2⟩

/-- A command whose happening keeps the property in the power states that pass it. -/
theorem owner {s : State} (h : P s) {p : Port} {code : HostCode} {c : Instr} {take : Taking}
    (ht : s.power.passes code = true → P (take s).1) : P (s.ownerTakes p code c take) := by
  unfold State.ownerTakes
  split
  · split
    · rename_i hp; exact k.answer (ht hp) _ _ _
    · exact k.answer h _ _ _
  · exact h

/-- A command that ACTIVE alone passes. -/
theorem ownerActive {s : State} (h : P s) {p : Port} {code : HostCode} {c : Instr} {take : Taking}
    (hc : ∀ power : PowerState, power.passes code = true → power = .active)
    (ht : s.power = .active → P (take s).1) : P (s.ownerTakes p code c take) :=
  k.owner h fun hp => ht (hc _ hp)

theorem link {s : State} (h : P s) {p : Port} {code : HostCode} {c : Instr} {reply : State → Reply} :
    P (s.linkTakes p code c reply) := by
  unfold State.linkTakes
  split
  · split <;> exact k.answer h _ _ _
  · exact h

omit k in
theorem onSource {s : State} (h : P s) {b : Byte} {take : SourceNo → Taking} (ht : ∀ i, P (take i s).1) :
    P (Machine.onSource b take s).1 := by
  unfold Machine.onSource
  split
  · exact ht _
  · exact h

omit k in
theorem configure {α : Type} {s : State} (h : P s) {p : Port} {field : Byte} {value : Half}
    {value? : SourceNo → Option α} {busy : SourceRec → Bool} {write : State → SourceNo → α → State} (i : SourceNo)
    (hw : ∀ v, value? i = some v → (s.source i).binder = some p → P (write s i v)) :
    P (takeConfigure p field value value? busy write i s).1 := by
  unfold takeConfigure
  split
  · exact h
  · split
    · split
      · exact h
      · exact hw _ ‹_› ‹_›
    · exact h

omit k in
theorem isPosted_of_wiredOnly {α : Type} {v : Option α} {i : SourceNo} {x : α} (h : wiredOnly v i = some x) :
    isPosted i = false := by
  unfold wiredOnly at h
  split at h <;> simp_all

omit k in
theorem isPosted_of_postedOnly {α : Type} {v : Option α} {i : SourceNo} {x : α} (h : postedOnly v i = some x) :
    isPosted i = true := by
  unfold postedOnly at h
  split at h <;> simp_all

omit k in
theorem active_of_passes {code : HostCode} (h1 : code ≠ .status) (h2 : code ≠ .repeatAnswer) (h3 : code ≠ .wake)
    (h4 : code ≠ .reset) (power : PowerState) : power.passes code = true → power = .active := by
  intro h
  cases power <;> first | rfl | (cases code <;> contradiction)

end KeptByOperations

/-- A member of the offer set that is the top. -/
theorem State.offered_of_mostUrgent {s : State} : ∀ {l : List SourceNo} {i : SourceNo}, s.mostUrgent l = some i → i ∈ l := by
  intro l
  induction l with
  | nil => intro i h; cases h
  | cons j rest ih =>
    intro i h
    unfold State.mostUrgent at h
    split at h
    · cases h; exact List.mem_cons_self
    · rename_i k hk
      split at h <;> cases h
      · exact List.mem_cons_of_mem _ (ih hk)
      · exact List.mem_cons_self

theorem State.offered_of_top {s : State} {p : Port} {i : SourceNo} (h : s.top p = some i) : s.offered p i = true := by
  have := State.offered_of_mostUrgent h
  simpa [State.offerSet] using this

theorem KeptByOperations.clearFor {P : State → Prop} (k : KeptByOperations P) {s : State} (h : P s) (p : Port)
    (code : HostCode) (t : Settings) (power : PowerState) (store : Option Answer)
    (ht : t.controlSet = s.settings.controlSet ∨ t.controlSet ≠ 0#4)
    (hp : power = .init ∨ power = .dormant ∧ s.inHold = false) : P (s.clearFor p code t power store) :=
  k.setLink _ _ _ (k.clear _ _ _ h ht hp) ⟨fun _ => .inl rfl, fun _ _ => rfl⟩

theorem Link.clearing_handOver (l : Link) (power : PowerState) (code : HostCode) (row : Option Instr) :
    (l.handOver power code row).clearing = l.clearing ∧
      ((l.inHand = none → l.waiting = none) → (l.handOver power code row).inHand = none →
        (l.handOver power code row).waiting = none) := by
  unfold Link.handOver
  split
  · unfold Link.settle Link.refuseIdentifier Link.send Link.keep
    dsimp only
    (repeat' split) <;> simp_all
  · simp_all
  · simp_all [Link.discard]

theorem Link.move_judgeFrame (s : State) (p : Port) (f : Frame) : LinkMove s p ((s.link p).judgeFrame p s.power f) := by
  have r : ∀ code r, LinkMove s p ((s.link p).refuseFrame code r) := fun _ _ => ⟨.inl, fun h => h⟩
  have d : LinkMove s p (s.link p).discard := ⟨.inl, fun h => h⟩
  have w : ∀ code, LinkMove s p ((s.link p).refuseByPower code s.power) := by
    intro code; unfold Link.refuseByPower; split <;> [exact r _ _; exact d]
  have o : ∀ code row, LinkMove s p ((s.link p).handOver s.power code row) := fun code row =>
    ⟨fun hc => .inl ((Link.clearing_handOver _ _ _ _).1.trans hc), (Link.clearing_handOver _ _ _ _).2⟩
  unfold Link.judgeFrame
  (repeat' split) <;> first | exact r _ _ | exact d | exact w _ | exact o _ _

theorem State.links_foldl {α : Type} {f : State → α → State} (hf : ∀ s a, (f s a).links = s.links) (l : List α) :
    ∀ s : State, (l.foldl f s).links = s.links := by
  induction l with
  | nil => intro s; rfl
  | cons a l ih => intro s; rw [List.foldl_cons, ih, hf]

@[simp] theorem State.links_clearTable (s : State) (p : Port) : (s.clearTable p).links = s.links := by
  simp only [State.clearTable, State.links_follow, State.endLoans, State.releaseClaims]
  rw [State.links_foldl (by simp), State.links_setClaimList, State.links_foldl (by simp)]

@[simp] theorem State.link_clearTable (s : State) (p q : Port) : (s.clearTable p).link q = s.link q := by
  simp only [State.link, State.links_clearTable]

theorem freshNonempty {cause : ResetCause} : (Settings.fresh cause).controlSet ≠ 0#4 := by
  show 0xF#4 ≠ 0#4
  decide

/-- What is kept by every operation is kept by every command. -/
theorem KeptByOperations.exec {P : State → Prop} (k : KeptByOperations P) (c : Instr) (s : State) (h : P s) :
    ∃ t, Machine.exec c s = .next t ∧ P t := by
  have act : ∀ {code : HostCode}, code ≠ .status → code ≠ .repeatAnswer → code ≠ .wake → code ≠ .reset →
      ∀ power : PowerState, power.passes code = true → power = .active := KeptByOperations.active_of_passes
  cases c <;> refine ⟨_, rfl, ?_⟩
  case status | repeatAnswer => exact k.link h
  case top p => exact k.ownerActive h (act (by decide) (by decide) (by decide) (by decide)) (k.top _ _ h)
  case claimTop p =>
    refine k.ownerActive h (act (by decide) (by decide) (by decide) (by decide)) fun ha => ?_
    unfold takeClaimTop
    split
    · split
      · exact h
      · exact k.claim _ _ _ h ha (State.offered_of_top ‹_›) (by simp_all)
    · split <;> exact h
  case claim p b =>
    refine k.ownerActive h (act (by decide) (by decide) (by decide) (by decide)) fun ha => KeptByOperations.onSource h fun i => ?_
    unfold takeClaimOf
    split
    · exact h
    · split
      · exact h
      · split
        · exact k.claim _ _ _ h ha ‹_› (by simp_all)
        · exact h
  case complete p b =>
    refine k.ownerActive h (act (by decide) (by decide) (by decide) (by decide)) fun ha => KeptByOperations.onSource h fun i => ?_
    unfold takeComplete
    split
    · split
      · exact k.complete _ _ _ _ h ha ‹_› ‹_›
      · exact k.lost _ _ _ h ha
    · exact h
  case defer p b =>
    refine k.ownerActive h (act (by decide) (by decide) (by decide) (by decide)) fun ha => KeptByOperations.onSource h fun i => ?_
    unfold takeDefer
    split
    · split
      · exact k.defer _ _ _ _ h ha ‹_› ‹_›
      · exact h
    · exact h
  case listClaims p => exact k.owner h fun _ => h
  case setThreshold p v =>
    refine k.ownerActive h (act (by decide) (by decide) (by decide) (by decide)) fun ha => ?_
    unfold takeSetThreshold
    split <;> [exact k.threshold _ _ _ h ha; exact h]
  case post p b =>
    refine k.ownerActive h (act (by decide) (by decide) (by decide) (by decide)) fun ha => KeptByOperations.onSource h fun i => ?_
    unfold takePost
    split
    · split
      · split
        · exact k.post _ _ h ha ‹_›
        · exact h
      · exact h
    · exact h
  case bind p b =>
    refine k.ownerActive h (act (by decide) (by decide) (by decide) (by decide)) fun ha => KeptByOperations.onSource h fun i => ?_
    unfold takeBind
    split
    · exact k.bind _ _ _ h ha ‹_›
    · split <;> exact h
  case unbind p b =>
    refine k.ownerActive h (act (by decide) (by decide) (by decide) (by decide)) fun ha => KeptByOperations.onSource h fun i => ?_
    unfold takeUnbind
    split
    · split
      · exact h
      · exact k.unbind _ _ h ha (by simp_all)
    · exact h
  case configurePriority =>
    exact k.ownerActive h (act (by decide) (by decide) (by decide) (by decide)) fun ha => KeptByOperations.onSource h fun i =>
      KeptByOperations.configure h i fun v _ hb => k.priority _ _ _ _ h ha hb
  case configureGroup =>
    exact k.ownerActive h (act (by decide) (by decide) (by decide) (by decide)) fun ha => KeptByOperations.onSource h fun i =>
      KeptByOperations.configure h i fun v _ hb => k.group _ _ _ _ h ha hb
  case configureTrigger =>
    exact k.ownerActive h (act (by decide) (by decide) (by decide) (by decide)) fun ha => KeptByOperations.onSource h fun i =>
      KeptByOperations.configure h i fun v hv hb => k.trigger _ _ _ _ h ha (KeptByOperations.isPosted_of_wiredOnly hv) hb
  case configureQualify =>
    exact k.ownerActive h (act (by decide) (by decide) (by decide) (by decide)) fun ha => KeptByOperations.onSource h fun i =>
      KeptByOperations.configure h i fun v hv hb => k.qualify _ _ _ _ h ha (KeptByOperations.isPosted_of_wiredOnly hv) hb
  case configureWaitLimit =>
    exact k.ownerActive h (act (by decide) (by decide) (by decide) (by decide)) fun ha => KeptByOperations.onSource h fun i =>
      KeptByOperations.configure h i fun v _ hb => k.waitLimit _ _ _ _ h ha hb
  case configureServiceLimit =>
    exact k.ownerActive h (act (by decide) (by decide) (by decide) (by decide)) fun ha => KeptByOperations.onSource h fun i =>
      KeptByOperations.configure h i fun v _ hb => k.serviceLimit _ _ _ _ h ha hb
  case configureFallback =>
    exact k.ownerActive h (act (by decide) (by decide) (by decide) (by decide)) fun ha => KeptByOperations.onSource h fun i =>
      KeptByOperations.configure h i fun v _ hb => k.fallback _ _ _ _ h ha hb
  case configurePosters =>
    exact k.ownerActive h (act (by decide) (by decide) (by decide) (by decide)) fun ha => KeptByOperations.onSource h fun i =>
      KeptByOperations.configure h i fun v hv hb => k.posters _ _ _ _ h ha (KeptByOperations.isPosted_of_postedOnly hv) hb
  case readSource => exact k.owner h fun _ => KeptByOperations.onSource h fun _ => h
  case enable p b =>
    refine k.ownerActive h (act (by decide) (by decide) (by decide) (by decide)) fun ha => KeptByOperations.onSource h fun i => ?_
    unfold takeEnable
    split <;> [exact k.enable _ _ _ h ha ‹_›; exact h]
  case disable p b =>
    refine k.ownerActive h (act (by decide) (by decide) (by decide) (by decide)) fun ha => KeptByOperations.onSource h fun i => ?_
    unfold takeDisable
    split <;> [exact k.disable _ _ _ h ha ‹_›; exact h]
  case lend p b d =>
    refine k.ownerActive h (act (by decide) (by decide) (by decide) (by decide)) fun ha => KeptByOperations.onSource h fun i => ?_
    split
    · unfold takeLend
      split
      · split
        · exact h
        · split
          · exact h
          · exact k.lend _ _ _ _ h ha ‹_› ‹_›
      · exact h
    · exact h
  case recallLoan p b =>
    refine k.ownerActive h (act (by decide) (by decide) (by decide) (by decide)) fun ha => KeptByOperations.onSource h fun i => ?_
    unfold takeRecall
    split
    · split <;> [exact k.recallLoan _ _ h ha; exact h]
    · exact h
  case returnLoan p b =>
    refine k.ownerActive h (act (by decide) (by decide) (by decide) (by decide)) fun ha => KeptByOperations.onSource h fun i => ?_
    unfold takeReturn
    split <;> [exact k.returnLoan _ _ _ h ha; exact h]
  case readIncident p =>
    refine k.ownerActive h (act (by decide) (by decide) (by decide) (by decide)) fun ha => ?_
    unfold takeReadIncident
    split <;> [exact k.readIncident _ _ _ _ h ha ‹_›; exact h]
  case portClear p =>
    split
    · split
      · rename_i hp
        have ha := act (by decide) (by decide) (by decide) (by decide) _ hp
        refine k.setLink _ _ _ (k.emptyQueue _ _ h ha) ⟨fun _ => .inr (by simpa using ha), fun _ hn => ?_⟩
        revert hn; unfold Link.beginClear; dsimp only; split <;> simp
      · exact k.answer h _ _ _
    · exact h
  case portClearOfferUnitPart p =>
    split
    · rename_i hc
      simp only [Bool.and_eq_true, decide_eq_true_eq] at hc
      exact k.setLink _ _ _ (k.clearOffers _ _ h hc.2) ⟨fun hi => by simp [hc.2] at hi, by simp⟩
    · exact h
  case portClearSourceTablePart p =>
    split
    · rename_i hc
      simp only [Bool.and_eq_true, decide_eq_true_eq] at hc
      exact k.answer (k.setLink _ _ _ (k.clearTable _ _ h hc.2)
        ⟨fun _ => .inl rfl, by simp⟩) _ _ _
    · exact h
  case readSetting p b =>
    refine k.owner h fun _ => ?_
    unfold takeReadSetting
    split <;> exact h
  case writeSettingControlSet p v =>
    refine k.ownerActive h (act (by decide) (by decide) (by decide) (by decide)) fun ha => ?_
    unfold takeWriteSetting
    split
    · exact h
    · rename_i hv
      split
      · refine k.settings _ _ h ha (.inr ?_)
        unfold controlSetArg at hv
        split at hv <;> cases hv
        rename_i hb
        intro h0
        have := congrArg BitVec.toNat h0
        simp at this
        omega
      · exact h
  case writeSettingWatchHoldGroupMask p v | writeSettingWatchHoldSegmentMask p v =>
    refine k.ownerActive h (act (by decide) (by decide) (by decide) (by decide)) fun ha => ?_
    unfold takeWriteSetting
    split
    · exact h
    · split <;> [exact k.settings _ _ h ha (.inl rfl); exact h]
  case writeSettingLastResetCause p v =>
    refine k.owner h fun _ => ?_
    unfold takeWriteCause
    (repeat' split) <;> exact h
  case watch p =>
    refine k.ownerActive h (act (by decide) (by decide) (by decide) (by decide)) fun ha => ?_
    unfold takeWatch
    split
    · exact h
    · rename_i hr
      unfold State.restRefusal at hr
      split at hr <;> [cases hr; skip]
      split at hr <;> [cases hr; skip]
      split at hr <;> [cases hr; skip]
      exact k.watch _ (k.deliverReached _ h) ha (by simp_all) (by simp_all)
  case dormant p =>
    split
    · rename_i hc
      refine k.clearFor h _ _ _ _ _ (.inr freshNonempty) (.inr ⟨rfl, ?_⟩)
      cases hh : s.inHold
      · rfl
      · simp [State.handsOn, hh] at hc
    · exact k.owner h fun _ => h
  case wake p =>
    split
    · exact k.clearFor h _ _ _ _ _ (.inr freshNonempty) (.inl rfl)
    · refine k.owner h fun _ => ?_
      unfold takeWake
      dsimp only
      split <;> [exact k.startWaking _ h ‹_›; exact h]
  case reset p =>
    split
    · exact k.clearFor h _ _ _ _ _ (.inl rfl) (.inl rfl)
    · exact k.owner h fun _ => h
  case chipSelectFall p =>
    refine k.setLink _ _ _ h ⟨fun hc => .inl ?_, ?_⟩ <;> unfold Link.select <;> split <;> simp_all
  case chipSelectRise p =>
    refine k.setLink _ _ _ h ⟨fun hc => .inl ?_, ?_⟩ <;> unfold Link.deselect <;> split <;> simp_all
  case answerFrameSent p =>
    split
    · exact k.setLink _ _ _ h ⟨.inl, fun h => h⟩
    · exact h
  case frameComplete p bytes =>
    split
    · split
      · exact k.setLink _ _ _ h (Link.move_judgeFrame _ _ _)
      · exact h
    · exact h
  case lineRawChange =>
    refine k.setLine _ _ _ h ?_
    split <;> [exact .inl ‹_›; exact .inr rfl]
  case qualifyTimeReached =>
    split
    · rename_i hc
      simp only [Bool.and_eq_true] at hc
      exact k.setLine _ _ _ h (.inl hc.1)
    · exact h
  case qualifiedChange n e =>
    split
    · split
      · rename_i hc
        simp only [Bool.and_eq_true] at hc
        exact k.takeChange _ _ _ _ h hc.1
      · exact h
    · exact h
  case wakeReport =>
    split
    · exact h
    · dsimp only
      split
      · exact k.startWaking _ (k.wakeReports _ _ h) ‹_›
      · exact k.wakeReports _ _ h
  case timerExpiryDelivered i =>
    split
    · split <;> [exact k.deliver _ _ _ h ‹_›; exact h]
    · exact h
  case waitExpiry i =>
    split
    · rename_i hx
      split
      · exact k.escalate _ _ _ h (State.expiryOf_eq_some.1 hx).2.1 ‹_›
      · exact k.stopTimer _ _ h
    · exact h
  case serviceExpiry i =>
    split
    · rename_i hx
      split
      · exact k.retract _ _ _ _ h (State.expiryOf_eq_some.1 hx).2.1 ‹_›
      all_goals exact k.stopTimer _ _ h
    · exact h
  case wakingEnd =>
    split
    · rename_i hd
      exact k.wakingEnd _ h (by simp [State.wakingDone] at hd; exact hd.1)
    · exact h
  case tableCheck f =>
    split
    · rename_i hc
      simp only [State.checking, Bool.and_eq_true, beq_iff_eq, Bool.not_eq_true'] at hc
      split <;> [exact k.enterFailed _ _ h hc.1 hc.2; exact k.enterActive _ h hc.1 hc.2]
    · exact h
  case powerOn =>
    exact k.pins _ _ _ (k.hold _ _ (k.clear _ _ _ h (.inr freshNonempty) (.inl rfl)) rfl)
  case resetnLow =>
    split
    · exact h
    · split
      · exact k.pins _ _ _ (k.hold _ _ (k.clear _ _ _ h (.inr freshNonempty) (.inl rfl)) rfl)
      · exact k.pins _ _ _ h
  case resetnRelease =>
    split
    · exact h
    · split
      · exact k.pins _ _ _ (k.hold _ _ (k.clear _ _ _ h (.inr freshNonempty) (.inl rfl)) rfl)
      · exact k.pins _ _ _ h
  case supplyAndRefclkReady =>
    split
    · exact h
    · split
      · exact k.pins _ _ _ h
      · exact k.pins _ _ _ (k.hold _ _ (k.clear _ _ _ h (.inr freshNonempty) (.inl rfl)) rfl)

/-- What is kept by every operation is kept by every step. -/
theorem KeptByOperations.step {P : State → Prop} (k : KeptByOperations P) {s t : State} (h : P s)
    (hs : Machine.step s = .next t) : P t := by
  unfold Machine.step at hs
  split at hs
  · obtain ⟨u, hu, hp⟩ := k.exec _ _ (k.pending s _ h)
    rw [hs] at hu
    cases hu
    exact hp
  · cases hs
    unfold State.tick
    split
    · exact h
    · split
      · exact k.pending { s with initTime := s.initTime + 1 } _ (k.counters s s.samplerTime (s.initTime + 1) _ h (.inl rfl))
      · exact k.pending { s with partTime := s.partTime + 1#32, samplerTime := s.samplerTime + 1 } _
          (k.counters s (s.samplerTime + 1) s.initTime _ h (.inr (by simp_all [State.partTimeRuns])))
      · exact k.pending { s with partTime := s.partTime + 1#32, samplerTime := s.samplerTime + 1 } _
          (k.counters s (s.samplerTime + 1) s.initTime _ h (.inr (by simp_all [State.partTimeRuns])))
      · exact k.pending { s with samplerTime := s.samplerTime + 1 } _
          (k.counters s (s.samplerTime + 1) s.initTime _ h (.inl rfl))
      · exact h
      · exact h

end Sys2Proof.Machine
end

