-- ==== Sys2Proof/Tests/Slice0.lean ====
section
/-! SUPPORT. Small tests: the ill-formed command, one or two single steps of each command with results from the spec's
worked examples and tables, and for each statement a state and operands that meet its hypotheses, clause by clause. -/

namespace Sys2Proof.Tests

-- Elaborated one after another, so that the check needs few threads.
set_option Elab.async false

open Sys2Proof.Machine

/-! ## Small states -/

/-- The state a command answers. -/
def run (c : Instr) (s : State) : State :=
  match exec c s with
  | .next t => t
  | .fault _ => s
  | .refused _ => s

/-- The result and payload that go out to a port. -/
def out (p : Port) (s : State) : Option (Result × List Byte) := (s.link p).answerFrame.map fun a => (a.result, a.payload)

/-- The part in ACTIVE, as a table check without a fault leaves it. -/
def active : State := { State.reset with power := .active }

/-- The part in ACTIVE at a part time. -/
def activeAt (t : Nat) : State := { active with partTime := BitVec.ofNat 32 t }

/-- An enabled record. -/
def bound (p : Port) (priority : Fin 256) : SourceRec :=
  { SourceRec.default with binder := some p, enabled := true, priority := priority }

/-- An enabled record in a state with a count. -/
def busyRec (p : Port) (priority : Fin 256) (state : SrcState) (count : Nat) : SourceRec :=
  { bound p priority with state := state, count := count }

/-- A command in hand whose transaction is open. -/
def inHand (p : Port) (code : HostCode) (c : Instr) (s : State) : State :=
  s.setLink p { Link.default with transaction := .processing, inHand := some ⟨code, some c, true⟩ }

/-- A port whose transaction is receiving. -/
def receiving (p : Port) (s : State) : State := s.setLink p { Link.default with transaction := .receiving }

/-- Port P0 binds S20, which is PENDING with count 2 and both limits set. -/
def offering : State :=
  State.follow (activeAt 1000) ((activeAt 1000).setSource 20
    { busyRec 0 40 .pending 2 with waitLimit := 100#16, serviceLimit := 300#16 })

/-- Port P0 holds S20, whose count is 1. -/
def holding : State :=
  ((activeAt 1000).setSource 20 { busyRec 0 40 (.claimed 0) 1 with waitLimit := 100#16 }).setClaimList 0
    [⟨20, 40, .held, 900#32⟩]

/-- Port P0 lost S20 to a retraction (06 section 6.5 at 5530, with P0 for P1). -/
def lost : State :=
  ((activeAt 5540).setSource 20 (busyRec 0 50 .escalated 2)).setClaimList 0 [⟨20, 50, .retracted, 5230#32⟩]

/-- `n` RETRACTED entries. -/
def lostEntries (n : Nat) : List ClaimEntry :=
  ((List.finRange 96).take n).map fun i => ⟨i, 30, .retracted, 0#32⟩

/-- A queue of `n` records. -/
def records (n : Nat) : List Incident := List.replicate n ⟨.released, 21, some 2, 0#8, 8000#32⟩

/-! ## The ill-formed command -/

/-- A frame cut before its check byte, and one with a byte after it, are no whole frame (R135). -/
theorem test_wellFormed_refuses :
    (Instr.frameComplete 0 [0x01#8, 0x00#8]).wellFormed = false ∧
      (Instr.frameComplete 0 [0x01#8, 0x00#8, 0x15#8, 0x00#8]).wellFormed = false ∧
      (Instr.frameComplete 0 [0x01#8, 0x00#8, 0x15#8]).wellFormed = true := by decide

/-! ## Frames written out byte by byte from R150 (check bytes by hand from R136) -/

theorem test_decode_status : decode 2 [0x01#8, 0x00#8, 0x15#8] = some (.status 2) := by decide +kernel

theorem test_decode_configure_args :
    decodeCommand 1 .configure [70#8, 1#8, 0#8, 50#8] = .row (.configurePriority 1 70#8 50#16) := by decide +kernel

theorem test_decode_unknown_field : decodeCommand 1 .configure [70#8, 9#8, 0#8, 50#8] = .unknownIdentifier := by
  decide +kernel

theorem test_decode_wrong_length : decodeCommand 0 .claim [] = .wrongLength := by decide +kernel

theorem test_decode_no_word : decodeTableWord 8 0 = none := by decide

/-! ## Single steps: status, ranking and claims -/

/-- 10.5 step 5: WATCH, part time 9030, flag and attention set. -/
theorem test_status : out 0 (run (.status 0)
    { (activeAt 9030).setOffer 0 { OfferPort.default with changed := true, attention := true } with power := .watch }) =
    some (.ok, [0#8, 2#8, 0#8, 0#8, 0#8, 6#8, 0#8, 0#8, 35#8, 70#8]) := by decide +kernel

/-- 4.9 step 3. -/
theorem test_top : out 1 (run (.top 1) (active.setSource 30 (busyRec 1 40 .pending 1))) =
    some (.ok, [1#8, 30#8, 40#8, 1#8]) := by decide +kernel

/-- 4.9 step 10: level 0 is reported as 0 with the mark. -/
theorem test_top_unnumbered : out 1 (run (.top 1) (active.setSource 70 (busyRec 1 0 .pending 1))) =
    some (.ok, [3#8, 70#8, 0#8, 1#8]) := by decide +kernel

/-- 4.9 step 4: of two sources at level 40 the smaller default position ranks first. -/
theorem test_top_default_position :
    ((active.setSource 30 (busyRec 1 40 .pending 1)).setSource 20 (busyRec 1 40 .pending 1)).top 1 = some 20 := by
  decide +kernel

/-- 5.7 step 1: a SERVICE timer from the service limit. -/
theorem test_claimTop :
    (run (.claimTop 2) ((activeAt 1000).setSource 45 { busyRec 2 60 .pending 1 with serviceLimit := 500#16 })).timer 45 =
      some ⟨.service, 1500#32, false⟩ := by decide +kernel

/-- 10.1 step 6. -/
theorem test_claim : out 3 (run (.claim 3 4#8) ((activeAt 240).setSource 4 (busyRec 3 0 .pending 1))) =
    some (.ok, [4#8, 0#8, 2#8, 1#8, 0#8, 0#8, 0#8, 240#8]) := by decide +kernel

/-- 5.7 step 8: a count merged during the claim re-pends the source. -/
theorem test_complete : out 0 (run (.complete 0 20#8) holding) = some (.ok, [20#8, 1#8, 1#8]) := by decide +kernel

/-- 6.5 at 5540. -/
theorem test_complete_too_late : out 0 (run (.complete 0 20#8) lost) =
    some (.tooLate, [20#8, 50#8, 0#8, 0#8, 0#8, 20#8, 110#8]) := by decide +kernel

/-- 10.1 step 9: the count is raised by one. -/
theorem test_defer : ((run (.defer 0 20#8) holding).source 20).count = 2 := by decide +kernel

/-- 5.7 step 4, in table D's form. -/
theorem test_listClaims : out 2 (run (.listClaims 2)
    (active.setClaimList 2 [⟨45, 60, .retracted, 1000#32⟩, ⟨66, 20, .held, 1040#32⟩])) =
    some (.ok, [2#8, 1#8, 1#8, 45#8, 60#8, 8#8, 0#8, 0#8, 3#8, 232#8, 66#8, 20#8, 0#8, 0#8, 0#8, 4#8, 16#8]) := by
  decide +kernel

/-- 4.9 step 5: level 40 is below 41. -/
theorem test_setThreshold : (run (.setThreshold 0 41#16) offering).top 0 = some 20 ∧
    (run (.setThreshold 0 40#16) offering).top 0 = none := by decide +kernel

/-! ## Posting and binding -/

/-- At 15 an event is taken and not counted (R49). -/
theorem test_post_saturated : out 1 (run (.post 1 80#8)
    (active.setSource 80 { busyRec 1 0 .pending 15 with posters := 2#4 })) = some (.ok, [80#8, 1#8, 15#8]) := by
  decide +kernel

/-- 4.9 step 1. -/
theorem test_post : ((run (.post 1 80#8) (active.setSource 80 { bound 1 0 with posters := 2#4 })).offer 1).attention =
    true := by decide +kernel

/-- A posted source's posters become the binder alone (R29). -/
theorem test_bind : ((run (.bind 3 64#8) active).source 64).posters = 8#4 := by decide +kernel

theorem test_bind_in_use : out 1 (run (.bind 1 20#8) offering) = some (.inUse, []) := by decide +kernel

/-- UNBIND drops a pending event without a record (10.7). -/
theorem test_unbind : (run (.unbind 0 20#8) offering).source 20 = SourceRec.default ∧
    ((run (.unbind 0 20#8) offering).queue 0).records = [] := by decide +kernel

/-- 10.2 step 1. -/
theorem test_lend : out 0 (run (.lend 0 16#8 2#8) (active.setSource 16 (bound 0 20))) =
    some (.ok, [16#8, 0#8, 2#8, 0#8, 4#8]) := by decide +kernel

/-- 10.2 step 4: the claim is not touched. -/
theorem test_recall : out 0 (run (.recallLoan 0 16#8)
    (active.setSource 16 { busyRec 0 20 (.claimed 2) 0 with borrower := some 2 })) =
    some (.ok, [16#8, 0#8, 4#8, 3#8, 2#8]) := by decide +kernel

/-- 10.2 step 11. -/
theorem test_return : ((run (.returnLoan 2 16#8)
    ((activeAt 1110).setSource 16 { bound 0 20 with borrower := some 2 })).queue 0).records =
    [⟨.loanEnded, 16, some 2, 1#8, 1110#32⟩] := by decide +kernel

/-! ## Configuration -/

/-- 4.9 step 13. -/
theorem test_configurePriority : out 1 (run (.configurePriority 1 70#8 50#16) (active.setSource 70 (bound 1 0))) =
    some (.ok, [70#8, 1#8, 0#8, 50#8]) := by decide +kernel

theorem test_configureGroup : out 0 (run (.configureGroup 0 20#8 8#16) offering) = some (.badArgument, []) := by
  decide +kernel

/-- 10.7: an enabled source's trigger is refused BUSY. -/
theorem test_configureTrigger : out 0 (run (.configureTrigger 0 20#8 3#16) offering) = some (.busy, []) := by
  decide +kernel

/-- A span that has lasted the new qualify time is taken at once (R14). -/
theorem test_configureQualify :
    ((run (.configureQualify 0 9#8 3#16)
      { (active.setSource 9 { bound 0 0 with enabled := false, qualify := 4 }).setLine 9
          ⟨true, true, false, some 5, []⟩ with samplerTime := 8 }).line 9).qualified = true := by decide +kernel

/-- A running timer keeps its expiry time (R15). -/
theorem test_configureWaitLimit :
    (run (.configureWaitLimit 0 20#8 7#16) (offering.setTimer 20 (some ⟨.wait, 1100#32, false⟩))).timer 20 =
      some ⟨.wait, 1100#32, false⟩ := by decide +kernel

theorem test_configureServiceLimit :
    ((run (.configureServiceLimit 0 20#8 65535#16) offering).source 20).serviceLimit = 65535#16 := by decide +kernel

/-- An ESCALATED source is offered to a new fallback at once (R16). -/
theorem test_configureFallback :
    (run (.configureFallback 0 20#8 3#16) lost).top 3 = some 20 := by decide +kernel

theorem test_configurePosters : out 0 (run (.configurePosters 0 20#8 1#16) offering) = some (.badArgument, []) := by
  decide +kernel

/-- Table E for an enabled posted source that is CLAIMED (R24). -/
theorem test_readSource : out 0 (run (.readSource 0 70#8)
    ((active.setSource 70 { busyRec 1 20 (.claimed 2) 3 with
        borrower := some 2, posters := 6#4, group := 5, waitLimit := 258#16, serviceLimit := 3#16 }).setTimer 70
      (some ⟨.service, 1500#32, false⟩))) =
    some (.ok, [70#8, 7#8, 14#8, 5#8, 1#8, 2#8, 4#8, 6#8, 0#8, 0#8, 20#8, 5#8, 1#8, 2#8, 0#8, 3#8, 3#8, 3#8, 2#8, 2#8,
      0#8, 0#8, 5#8, 220#8]) := by decide +kernel

/-- 10.7: a level source whose line is active answers PENDING, count 1. -/
theorem test_enable : out 0 (run (.enable 0 9#8)
    (active.setSource 9 { bound 0 0 with enabled := false, trigger := .low })) =
    some (.ok, [9#8, 1#8, 1#8, 1#8]) := by decide +kernel

/-- 7.5 step 5. -/
theorem test_disable : ((run (.disable 0 40#8) ((activeAt 8065).setSource 40 (busyRec 0 20 .pending 3))).queue 0).records =
    [⟨.withdrawn, 40, none, 3#8, 8065#32⟩] := by decide +kernel

/-! ## Incidents, port clear, settings -/

/-- 7.5 step 4. -/
theorem test_readIncident : out 0 (run (.readIncident 0) (active.setQueue 0 ⟨records 8, true⟩)) =
    some (.ok, [6#8, 21#8, 2#8, 0#8, 0#8, 0#8, 31#8, 64#8, 1#8, 7#8]) := by decide +kernel

/-- 7.5 steps 7 and 8. -/
theorem test_readIncident_last : ((run (.readIncident 0) (active.setQueue 0 ⟨records 1, true⟩)).queue 0).overflow =
    false ∧ out 0 (run (.readIncident 0) active) = some (.empty, [0#8, 0#8]) := by decide +kernel

theorem test_portClear : ((run (.portClear 2) (active.setQueue 2 ⟨records 8, true⟩)).queue 2) = IncidentQueue.default := by
  decide +kernel

theorem test_portClearOfferUnitPart :
    ((run (.portClearOfferUnitPart 0)
      ((offering.setOffer 0 ⟨7, some 3, true, false⟩).setLink 0 { Link.default with clearing := .offerUnitNext })).offer 0) =
      ⟨257, none, false, true⟩ := by decide +kernel

/-- 7.5 step 1, with S44 alone: RELEASED, then COUNT_SATURATED. -/
theorem test_portClearSourceTablePart :
    ((run (.portClearSourceTablePart 2)
      ((((activeAt 8000).setSource 44 (busyRec 0 40 (.claimed 2) 14)).setClaimList 2 [⟨44, 40, .held, 0#32⟩]).setLink 2
        { Link.default with clearing := .sourceTableNext })).queue 0).records =
      [⟨.released, 44, some 2, 0#8, 8000#32⟩, ⟨.countSaturated, 44, none, 0#8, 8000#32⟩] := by decide +kernel

/-- 10.4 step 4. -/
theorem test_repeat : out 2 (run (.repeatAnswer 2) (active.setLink 2 { Link.default with
    repeatStore := some ⟨0x03#8, .ok, [40#8, 25#8, 0#8, 2#8, 0#8, 0#8, 19#8, 136#8]⟩ })) =
    some (.ok, [3#8, 0#8, 40#8, 25#8, 0#8, 2#8, 0#8, 0#8, 19#8, 136#8]) := by decide +kernel

/-- Setting 3 after power-on: cause 0, issuer byte 4 (R152). -/
theorem test_readSetting : out 0 (run (.readSetting 0 3#8) active) = some (.ok, [3#8, 0#8, 4#8]) := by decide +kernel

theorem test_writeSettingControlSet : out 0 (run (.writeSettingControlSet 0 0#16) active) = some (.badArgument, []) := by
  decide +kernel

/-- 10.5 step 2: value 0040h is the mask {6}. -/
theorem test_writeSettingGroupMask :
    (run (.writeSettingWatchHoldGroupMask 3 0x40#16) active).settings.groupMask.getLsbD 6 = true := by decide +kernel

theorem test_writeSettingSegmentMask : out 3 (run (.writeSettingWatchHoldSegmentMask 3 0x100#16) active) =
    some (.badArgument, []) := by decide +kernel

theorem test_writeSettingLastResetCause : out 3 (run (.writeSettingLastResetCause 3 0#16) active) =
    some (.readOnly, []) := by decide +kernel

/-! ## Power -/

/-- 10.5 step 1. -/
theorem test_watch : out 3 (run (.watch 3) holding) = some (.busy, []) ∧
    (run (.watch 3) offering).power = .watch := by decide +kernel

theorem test_dormant : (run (.dormant 3) offering).power = .dormant ∧
    (run (.dormant 3) offering).source 20 = SourceRec.default := by decide +kernel

theorem test_wake : (run (.wake 1) { active with power := .watch }).power = .waking := by decide +kernel

/-- After RESET from P2: INIT, setting 3 holds COMMAND and P2, and P2's repeat store holds the answer (R145, R158). -/
theorem test_reset : (run (.reset 2) offering).settings.lastResetCause.bytes = [2#8, 2#8] ∧
    ((run (.reset 2) offering).link 2).repeatStore = some ⟨0x3F#8, .ok, []⟩ := by decide +kernel

theorem test_wakingEnd : (run .wakingEnd { active with power := .waking, partTime := 20#32 }).power = .active ∧
    (run .wakingEnd { active with power := .waking, partTime := 19#32 }).power = .waking := by decide +kernel

theorem test_tableCheck : (run (.tableCheck .nothing) State.reset).power = .active ∧
    (run (.tableCheck .storageFault) State.reset).power = .failed := by decide +kernel

theorem test_powerOn : (run .powerOn offering).inHold = true := by decide +kernel

theorem test_resetnLow : out 0 (run (.status 0) (run .resetnLow offering)) = none := by decide +kernel

theorem test_resetnRelease : (run .resetnRelease (run .resetnLow offering)).settings.lastResetCause = .pin := by
  decide +kernel

theorem test_supplyReady : (run .supplyAndRefclkReady (run .powerOn offering)).settings.lastResetCause = .powerOn := by
  decide +kernel

/-! ## The serial ports -/

theorem test_chipSelectFall : ((run (.chipSelectFall 1) active).link 1).transaction = .receiving := by decide +kernel

/-- The STATUS frame with its check byte becomes the command in hand; a damaged one is answered BAD_CHECK. -/
theorem test_frameComplete :
    ((run (.frameComplete 1 [0x01#8, 0x00#8, 0x15#8]) (receiving 1 active)).link 1).inHand =
        some ⟨.status, some (.status 1), true⟩ ∧
      out 1 (run (.frameComplete 1 [0x01#8, 0x00#8, 0x14#8]) (receiving 1 active)) = some (.badCheck, []) := by
  decide +kernel

theorem test_answerFrameSent :
    ((run (.answerFrameSent 1) (active.setLink 1 { Link.default with transaction := .answering })).link 1).transaction =
      .draining := by decide +kernel

/-- 10.4 step 2: chip-select rises in PROCESSING, the command is taken and its answer is kept and not sent. -/
theorem test_chipSelectRise :
    (run (.claimTop 0) (run (.chipSelectRise 0) (inHand 0 .claimTop (.claimTop 0) offering))).claimList 0 =
        [⟨20, 40, .held, 1000#32⟩] ∧
      out 0 (run (.claimTop 0) (run (.chipSelectRise 0) (inHand 0 .claimTop (.claimTop 0) offering))) = none := by
  decide +kernel

/-! ## The event lines and the deadlines -/

/-- S9 of 3.8: RISING, qualify 4, at a time of the sampler. -/
def s9At (t : Nat) (l : Line) : State :=
  { (active.setSource 9 { bound 0 0 with qualify := 4, group := 2 }).setLine 9 l with samplerTime := t }

/-- 3.8 at 0 and at 2. -/
theorem test_lineRawChange : ((run (.lineRawChange 9 true) (s9At 0 Line.default)).line 9).span = some 0 ∧
    ((run (.lineRawChange 9 false) (s9At 2 ⟨true, true, false, some 0, []⟩)).line 9).span = none := by decide +kernel

/-- 3.8 at 9, and not at 8. -/
theorem test_qualifyTimeReached :
    ((run (.qualifyTimeReached 9) (s9At 9 ⟨true, true, false, some 5, []⟩)).line 9).reports = [.rise] ∧
      ((run (.qualifyTimeReached 9) (s9At 8 ⟨true, true, false, some 5, []⟩)).line 9).reports = [] := by decide +kernel

/-- 3.8 at 9 and at 16: RISING maps a fall to no event. -/
theorem test_qualifiedChange :
    ((run (.qualifiedChange 9 .rise) (s9At 9 ⟨true, true, false, none, [.rise]⟩)).source 9).count = 1 ∧
      ((run (.qualifiedChange 9 .fall) (s9At 16 ⟨false, false, true, none, [.fall]⟩)).source 9).count = 0 := by
  decide +kernel

/-- 3.8 at 52: the pin is high against frozen low, so a span begins. -/
theorem test_wakeReport :
    ((run .wakeReport { s9At 52 ⟨true, false, false, none, []⟩ with
        power := .watch, wakeReports := 1, settings := { State.reset.settings with groupMask := 4#8 } }).line 9).span =
      some 52 := by decide +kernel

/-- R106: a WAIT timer started at 4 294 967 000 with limit 500 expires at 204, and not before. -/
theorem test_timerExpiryDelivered :
    (((activeAt 4294967000).startTimer 18 .wait 500#16).timer 18) = some ⟨.wait, 204#32, false⟩ ∧
      ((run (.timerExpiryDelivered 18) ((activeAt 4294967200).setTimer 18 (some ⟨.wait, 204#32, false⟩))).timer 18) =
        some ⟨.wait, 204#32, false⟩ ∧
      ((run (.timerExpiryDelivered 18) ((activeAt 204).setTimer 18 (some ⟨.wait, 204#32, false⟩))).timer 18) =
        some ⟨.wait, 204#32, true⟩ := by decide +kernel

/-- 6.5 at 5200. -/
theorem test_waitExpiry :
    ((run (.waitExpiry 18) (((activeAt 5200).setSource 18 { busyRec 0 50 .pending 2 with fallback := some 1 }).setTimer 18
      (some ⟨.wait, 5200#32, true⟩))).queue 0).records = [⟨.escalated, 18, some 1, 0#8, 5200#32⟩] := by decide +kernel

/-- 7.5 step 3: the second record of the happening finds the queue full. -/
theorem test_serviceExpiry :
    ((run (.serviceExpiry 12) (((((activeAt 8050).setSource 12 (busyRec 0 60 (.claimed 1) 14)).setClaimList 1
      [⟨12, 60, .held, 0#32⟩]).setTimer 12 (some ⟨.service, 8050#32, true⟩)).setQueue 0 ⟨records 7, false⟩)).queue 0) =
      ⟨records 7 ++ [⟨.retracted, 12, some 1, 0#8, 8050#32⟩], true⟩ := by decide +kernel

/-! ## Witnesses: the hypotheses of each statement, clause by clause, at the boundary values of its ranges -/

/-- A part whose S20 has the given record. -/
def with20 (r : SourceRec) : State := active.setSource 20 r

/-- S20's record in a posted source's place, S64. -/
def with64 (r : SourceRec) : State := active.setSource 64 { r with posters := 5#4 }

/-- The part with port P1's queue, list or interface replaced. -/
def withQueue (q : IncidentQueue) : State := active.setQueue 1 q
def withList (l : List ClaimEntry) : State := active.setClaimList 1 l
def withLink (l : Link) : State := active.setLink 1 l

/-- S20 is PENDING in WAKING with a WAIT timer that expires now. -/
def waiting : State :=
  { offering with power := .waking, wakingSince := 990#32 }.setTimer 20 (some ⟨.wait, 1000#32, true⟩)

/-- Port P2 holds S20, bound by P0, with a SERVICE timer that expires now. -/
def serving (enabled : Bool) (count : Nat) : State :=
  (((activeAt 1000).setSource 20 { busyRec 0 40 (.claimed 2) count with enabled := enabled }).setClaimList 2
    [⟨20, 40, .held, 700#32⟩]).setTimer 20 (some ⟨.service, 1000#32, true⟩)

theorem witness_AMicrosecondRunsTheCounters :
    (∀ s ∈ [offering, waiting, { offering with power := .watch }, State.reset, { State.reset with power := .dormant }],
      s.pending = [] ∧ s.inHold = false) ∧
      (offering.setTimer 20 (some ⟨.wait, 1001#32, false⟩)).timer 20 = some ⟨.wait, 1001#32, false⟩ ∧
      (⟨.wait, 1001#32, false⟩ : Timer).reached 1001#32 = true ∧ waiting.power = .waking ∧
      20 ≤ ((1009#32 : Time) + 1#32 - waiting.wakingSince).toNat := by decide +kernel

/-- A span that reaches the qualify time at the microsecond's end, in WATCH and in ACTIVE, one that does not, and the table
check at its limit and before it. -/
theorem witness_AMicrosecondRunsTheCounters_due :
    (∀ w ∈ [PowerState.active, .watch],
      let s := { s9At 8 ⟨true, true, false, some 5, []⟩ with power := w };
      s.sampled 9 = true ∧ (s.line 9).span = some 5 ∧
        (s.source (sourceOf 9)).qualify.val ≤ s.samplerTime + 1 - 5 ∧ s.pending = [] ∧ s.inHold = false) ∧
    (let s := s9At 7 ⟨true, true, false, some 5, []⟩;
      ¬(s.source (sourceOf 9)).qualify.val ≤ s.samplerTime + 1 - 5) ∧
    48 ≤ ({ State.reset with initTime := 47 } : State).initTime + 1 ∧
      ¬48 ≤ ({ State.reset with initTime := 46 } : State).initTime + 1 := by decide +kernel

theorem witness_CommandFramesRoundTrip :
    (Instr.configurePosters 3 95#8 15#16).hostForm = some (3, .configure, [95#8, 8#8, 0#8, 15#8]) ∧
      decode 3 (frameOf .configure [95#8, 8#8, 0#8, 15#8]) = some (.configurePosters 3 95#8 15#16) := by decide +kernel

theorem witness_StatusReportsTheSender :
    (∀ s ∈ [offering, { offering with power := .watch }, State.reset],
      s.handsOn 3 (.status 3) = true ∧ s.power ≠ .dormant) ∧
      (inHand 3 .status (.status 3) offering).handsOn 3 (.status 3) = true := by decide +kernel

theorem witness_RepeatAnswersTheStore :
    ((withLink { Link.default with repeatStore := some ⟨0x03#8, .ok, []⟩ }).handsOn 1 (.repeatAnswer 1) = true ∧
      ((withLink { Link.default with repeatStore := some ⟨0x03#8, .ok, []⟩ }).link 1).repeatStore =
        some ⟨0x03#8, .ok, []⟩) ∧
      active.handsOn 1 (.repeatAnswer 1) = true ∧ (active.link 1).repeatStore = none ∧ active.power ≠ .dormant := by
  decide +kernel

theorem witness_TopReportsAndRecords :
    Ready offering 0 (.top 0) ∧ offering.top 0 = some 20 ∧ Ready offering 3 (.top 3) ∧ offering.top 3 = none := by
  decide +kernel

theorem witness_SetThresholdMovesTheBound :
    Ready offering 0 (.setThreshold 0 0#16) ∧ Ready offering 0 (.setThreshold 0 257#16) ∧ (257#16).toNat ≤ 257 ∧
      Ready offering 0 (.setThreshold 0 258#16) ∧ 258 ≤ (258#16).toNat := by decide +kernel

theorem witness_LevelsAndDefaultPositions : (1 : Fin 256) ≠ 0 ∧ (255 : Fin 256) ≠ 0 ∧ (7 : SourceNo).val < 8 ∧
    64 ≤ (64 : SourceNo).val ∧ (71 : SourceNo).val < 72 ∧ 8 ≤ (63 : SourceNo).val ∧ (63 : SourceNo).val < 64 ∧
    72 ≤ (72 : SourceNo).val ∧ (0 : SourceNo) ≠ 95 := by decide

theorem witness_RunningLevelIsTheSmallestHeldLevel :
    (∀ e ∈ lost.claimList 0, e.status = .retracted) ∧ lost.claimList 0 ≠ [] ∧
      (∃ e ∈ holding.claimList 0, e.status = .held ∧ e.level ≤ 257) := by decide +kernel

theorem witness_ClaimsAreTaken :
    (((lostEntries 7).filter (fun e => !(e.source == (20 : SourceNo) && e.status == .retracted))).length < 8 ∧
      Ready (offering.setClaimList 0 (lostEntries 7)) 0 (.claimTop 0) ∧
      (offering.setClaimList 0 (lostEntries 7)).top 0 = some 20 ∧
      Ready (offering.setClaimList 0 (lostEntries 7)) 0 (.claim 0 20#8) ∧ (20#8).toNat = (20 : SourceNo).val ∧
      (offering.setClaimList 0 (lostEntries 7)).offered 0 20 = true) ∧
    ((lost.claimList 0).filter (fun e => !(e.source == (20 : SourceNo) && e.status == .retracted))).length < 8 ∧
      Ready lost 0 (.claimTop 0) ∧ lost.top 0 = some 20 := by decide +kernel

theorem witness_ClaimRefusalsInOrder :
    (Ready active 0 (.claim 0 96#8) ∧ 96 ≤ (96#8).toNat ∧ (95#8).toNat = (95 : SourceNo).val) ∧
    (Ready (offering.setClaimList 0 (lostEntries 8)) 0 (.claim 0 20#8) ∧
      8 ≤ (((offering.setClaimList 0 (lostEntries 8)).claimList 0).filter
        (fun e => !(e.source == (20 : SourceNo) && e.status == .retracted))).length) ∧
    (Ready holding 3 (.claim 3 20#8) ∧ (∃ q, (holding.source 20).state = .claimed q) ∧
      ((holding.claimList 3).filter (fun e => !(e.source == (20 : SourceNo) && e.status == .retracted))).length < 8) ∧
    (Ready offering 3 (.claim 3 20#8) ∧ (¬∃ q, (offering.source 20).state = .claimed q) ∧
      offering.offered 3 20 = false) ∧
    (Ready (offering.setClaimList 0 (lostEntries 8)) 0 (.claimTop 0) ∧
      (offering.setClaimList 0 (lostEntries 8)).top 0 = some 20) ∧
    (Ready (withList (lostEntries 8)) 1 (.claimTop 1) ∧ (withList (lostEntries 8)).top 1 = none ∧
      8 ≤ ((withList (lostEntries 8)).claimList 1).length) ∧
    (Ready (withList (lostEntries 7)) 1 (.claimTop 1) ∧ (withList (lostEntries 7)).top 1 = none ∧
      ((withList (lostEntries 7)).claimList 1).length < 8) := by decide +kernel

theorem witness_CompleteEndsAHeldClaim :
    (Ready holding 0 (.complete 0 20#8) ∧ (20#8).toNat = (20 : SourceNo).val ∧
      (holding.claimList 0).find? (·.source == 20) = some ⟨20, 40, .held, 900#32⟩) ∧
    ((holding.source 20).enabled = true ∧ 0 < (holding.source 20).count) ∧
    (let s := holding.setSource 20 { busyRec 0 40 (.claimed 0) 0 with trigger := .low };
      Ready s 0 (.complete 0 20#8) ∧ ¬0 < (s.source 20).count ∧ s.lineActive 20 = true) ∧
    (let s := holding.setSource 20 (busyRec 0 40 (.claimed 0) 0);
      Ready s 0 (.complete 0 20#8) ∧ s.lineActive 20 = false) := by decide +kernel

theorem witness_CompleteOfALostOrMissingEntry :
    Ready lost 0 (.complete 0 96#8) ∧ 96 ≤ (96#8).toNat ∧ Ready lost 0 (.complete 0 20#8) ∧
      (lost.claimList 0).find? (·.source == 20) = some ⟨20, 50, .retracted, 5230#32⟩ ∧
      Ready lost 0 (.complete 0 95#8) ∧ (95#8).toNat = (95 : SourceNo).val ∧
      (lost.claimList 0).find? (·.source == 95) = none := by decide +kernel

theorem witness_DeferGivesTheClaimBack :
    (Ready holding 0 (.defer 0 96#8) ∧ Ready holding 0 (.defer 0 20#8) ∧
      (holding.claimList 0).find? (·.source == 20) = some ⟨20, 40, .held, 900#32⟩ ∧
      (holding.source 20).enabled = true) ∧
    (let s := holding.setSource 20 (busyRec 0 40 (.claimed 0) 14);
      Ready s 0 (.defer 0 20#8) ∧ raisedCount (s.source 20).count = 15) ∧
    (let s := holding.setSource 20 { busyRec 0 40 (.claimed 0) 15 with enabled := false };
      Ready s 0 (.defer 0 20#8) ∧ (s.source 20).enabled = false) ∧
    (Ready lost 0 (.defer 0 20#8) ∧
      ∀ e ∈ (lost.claimList 0).find? (·.source == 20), e.status = .retracted) := by decide +kernel

theorem witness_ListClaimsAndReadSourceReport :
    Ready (withList (lostEntries 8)) 1 (.listClaims 1) ∧ Ready offering 3 (.readSource 3 96#8) ∧
      Ready offering 3 (.readSource 3 95#8) ∧ (95#8).toNat = (95 : SourceNo).val ∧ 96 ≤ (96#8).toNat := by
  decide +kernel

theorem witness_PostTakesOneEvent :
    ∀ s ∈ [with64 (bound 0 0), with64 (busyRec 0 0 .pending 14), with64 (busyRec 0 0 (.claimed 1) 15)],
      Ready s 2 (.post 2 64#8) ∧ (64#8).toNat = (64 : SourceNo).val ∧
        (s.source 64).posters.getLsbD (2 : Port).val = true ∧ (s.source 64).enabled = true := by decide +kernel

theorem witness_PostAndBindingRefusalsInOrder :
    (96 ≤ (96#8).toNat ∧ Ready active 3 (.post 3 96#8) ∧ Ready active 3 (.bind 3 96#8) ∧ Ready active 3 (.unbind 3 96#8) ∧
      Ready active 3 (.lend 3 96#8 0#8) ∧ Ready active 3 (.recallLoan 3 96#8) ∧ Ready active 3 (.returnLoan 3 96#8)) ∧
    (Ready active 3 (.post 3 63#8) ∧ (63#8).toNat = (63 : SourceNo).val) ∧
    (let s := with64 (bound 0 0);
      Ready s 1 (.post 1 64#8) ∧ (s.source 64).posters.getLsbD (1 : Port).val = false) ∧
    (let s := with64 { bound 0 0 with enabled := false };
      Ready s 0 (.post 0 64#8) ∧ (s.source 64).posters.getLsbD (0 : Port).val = true ∧
        (s.source 64).enabled = false) ∧
    (Ready holding 3 (.bind 3 20#8) ∧ ∃ q, q ≠ (3 : Port) ∧ (holding.source 20).binder = some q) ∧
    (Ready holding 3 (.unbind 3 20#8) ∧ (holding.source 20).binder ≠ some 3) ∧
    (Ready holding 0 (.unbind 0 20#8) ∧ (holding.source 20).binder = some 0 ∧
      ∃ q, (holding.source 20).state = .claimed q) ∧
    (Ready holding 0 (.lend 0 20#8 4#8) ∧ 4 ≤ (4#8).toNat ∧ Ready holding 3 (.lend 3 20#8 3#8) ∧ (3#8).toNat < 4) ∧
    (Ready holding 0 (.lend 0 20#8 0#8) ∧ (0#8).toNat = (0 : Port).val) ∧
    (let s := with20 { bound 0 0 with borrower := some 2 };
      Ready s 0 (.lend 0 20#8 3#8) ∧ (3#8).toNat ≠ (0 : Port).val ∧ (s.source 20).borrower ≠ none) ∧
    (Ready holding 3 (.recallLoan 3 20#8) ∧ Ready holding 0 (.recallLoan 0 20#8) ∧
      (holding.source 20).borrower = none) ∧
    (Ready holding 3 (.returnLoan 3 20#8) ∧ (holding.source 20).borrower ≠ some 3) := by decide +kernel

theorem witness_BindBindsAnUnboundSource :
    Ready active 3 (.bind 3 63#8) ∧ (63#8).toNat = (63 : SourceNo).val ∧ Ready active 3 (.bind 3 64#8) ∧
      (64#8).toNat = (64 : SourceNo).val ∧ (active.source 64).binder = none ∧ Ready holding 0 (.bind 0 20#8) ∧
      (20#8).toNat = (20 : SourceNo).val ∧ (holding.source 20).binder = some 0 := by decide +kernel

theorem witness_UnbindReturnsTheDefaultRecord :
    (Ready offering 0 (.unbind 0 20#8) ∧ (20#8).toNat = (20 : SourceNo).val ∧ (offering.source 20).binder = some 0 ∧
      ¬∃ q, (offering.source 20).state = .claimed q) ∧
    (let s := (s9At 8 ⟨true, true, false, some 5, []⟩);
      Ready s 0 (.unbind 0 9#8) ∧ sourceOf 9 = 9 ∧ (s.source 9).qualify ≠ 0 ∧ (s.line 9).span ≠ none ∧
        ¬∃ q, (s.source 9).state = .claimed q) := by decide +kernel

theorem witness_LendingMovesTheBorrower :
    (Ready offering 0 (.lend 0 20#8 3#8) ∧ (3#8).toNat = (3 : Port).val ∧ (offering.source 20).binder = some 0 ∧
      (3 : Port) ≠ 0 ∧ (offering.source 20).borrower = none) ∧
    (let s := with20 { bound 0 0 with borrower := some 2 };
      (Ready s 0 (.recallLoan 0 20#8) ∧ (s.source 20).binder = some 0 ∧ (s.source 20).borrower ≠ none) ∧
        Ready s 2 (.returnLoan 2 20#8) ∧ (s.source 20).borrower = some 2) := by decide +kernel

theorem witness_ConfigureWritesOneField :
    ((offering.source 20).binder = some 0 ∧ Ready offering 0 (.configureGroup 0 20#8 7#16) ∧
      (7#16).toNat = (7 : Fin 8).val ∧ Ready offering 0 (.configureWaitLimit 0 20#8 65535#16) ∧
      Ready offering 0 (.configureServiceLimit 0 20#8 0#16)) ∧
    (Ready (with64 (bound 0 0)) 0 (.configurePosters 0 64#8 15#16) ∧ ((with64 (bound 0 0)).source 64).binder = some 0 ∧
      (15#16).toNat < 16) ∧
    (let s := active.setSource 63 { bound 0 0 with enabled := false };
      Ready s 0 (.configureTrigger 0 63#8 4#16) ∧ (63#8).toNat = (63 : SourceNo).val ∧
        (4#16).toNat = Trigger.low.byte.toNat ∧ (s.source 63).enabled = false ∧
        ¬∃ q, (s.source 63).state = .claimed q) := by decide +kernel

theorem witness_ConfigurePriorityAndFallbackFollow :
    (offering.source 20).binder = some 0 ∧ Ready offering 0 (.configurePriority 0 20#8 0#16) ∧
      Ready offering 0 (.configurePriority 0 20#8 255#16) ∧ (255#16).toNat = (255 : Fin 256).val ∧
      Ready offering 0 (.configureFallback 0 20#8 3#16) ∧ (3#16).toNat = (3 : Port).val ∧
      Ready offering 0 (.configureFallback 0 20#8 4#16) ∧ (4#16).toNat = 4 := by decide +kernel

theorem witness_ConfigureQualifyGovernsTheSpan :
    let s := { (active.setSource 9 { bound 0 0 with enabled := false, qualify := 4 }).setLine 9
      ⟨true, true, false, some 5, []⟩ with samplerTime := 8 };
    ((9#8).toNat = (9 : LineNo).val ∧ (s.source (sourceOf 9)).binder = some 0 ∧
      (s.source (sourceOf 9)).enabled = false ∧ (s.line 9).span = some 5) ∧
    (Ready s 0 (.configureQualify 0 9#8 4#16) ∧ (4 : Fin 16) = (s.source (sourceOf 9)).qualify) ∧
    (Ready s 0 (.configureQualify 0 9#8 15#16) ∧ (15#16).toNat = (15 : Fin 16).val ∧
      s.samplerTime - 5 < (15 : Fin 16).val) ∧
    (Ready s 0 (.configureQualify 0 9#8 3#16) ∧ (3#16).toNat = (3 : Fin 16).val ∧
      (3 : Fin 16).val ≤ s.samplerTime - 5) := by decide +kernel

theorem witness_ConfigureRefusalsInOrder :
    (Ready offering 0 (.configurePriority 0 96#8 0#16) ∧ Ready offering 0 (.configurePosters 0 96#8 0#16) ∧
      96 ≤ (96#8).toNat) ∧
    (Ready offering 0 (.configurePriority 0 20#8 256#16) ∧ 256 ≤ (256#16).toNat ∧
      Ready offering 0 (.configureGroup 0 20#8 8#16) ∧ Ready offering 0 (.configureTrigger 0 64#8 0#16) ∧
      Ready offering 0 (.configureTrigger 0 63#8 5#16) ∧ Ready offering 0 (.configureQualify 0 63#8 16#16) ∧
      Ready offering 0 (.configureFallback 0 20#8 5#16) ∧ Ready offering 0 (.configurePosters 0 63#8 0#16) ∧
      Ready offering 0 (.configurePosters 0 64#8 16#16)) ∧
    ((offering.source 20).binder ≠ some 3 ∧ (offering.source 64).binder ≠ some 3 ∧
      Ready offering 3 (.configurePriority 3 20#8 255#16) ∧ Ready offering 3 (.configureGroup 3 20#8 7#16) ∧
      Ready offering 3 (.configureTrigger 3 20#8 4#16) ∧ Ready offering 3 (.configureQualify 3 20#8 15#16) ∧
      Ready offering 3 (.configureWaitLimit 3 20#8 65535#16) ∧ Ready offering 3 (.configureServiceLimit 3 20#8 0#16) ∧
      Ready offering 3 (.configureFallback 3 20#8 4#16) ∧ Ready offering 3 (.configurePosters 3 64#8 15#16)) ∧
    ((offering.source 20).binder = some 0 ∧ (offering.source 20).enabled = true ∧
      Ready offering 0 (.configureTrigger 0 20#8 4#16) ∧ Ready offering 0 (.configureQualify 0 20#8 15#16)) ∧
    (let s := (serving false 1);
      Ready s 0 (.configureTrigger 0 20#8 0#16) ∧ (s.source 20).binder = some 0 ∧
        ∃ q, (s.source 20).state = .claimed q) := by decide +kernel

theorem witness_EnableMayTakeOneEvent :
    (Ready offering 0 (.enable 0 96#8) ∧ 96 ≤ (96#8).toNat) ∧
    (Ready offering 3 (.enable 3 20#8) ∧ (20#8).toNat = (20 : SourceNo).val ∧
      (offering.source 20).binder ≠ some 3) ∧
    (Ready offering 0 (.enable 0 20#8) ∧ (offering.source 20).binder = some 0 ∧
      (offering.source 20).enabled = true) ∧
    (let s := with20 { bound 0 0 with enabled := false, trigger := .low, waitLimit := 65535#16 };
      Ready s 0 (.enable 0 20#8) ∧ (s.source 20).enabled = false ∧ (s.source 20).state = .quiet ∧
        lineOf 20 = some 20 ∧ (s.source 20).trigger = .low ∧ (s.line 20).qualified = false) ∧
    (let s := with64 { bound 0 0 with enabled := false };
      Ready s 0 (.enable 0 64#8) ∧ (s.source 64).enabled = false ∧ lineOf 64 = none) := by decide +kernel

theorem witness_DisableByState :
    (Ready offering 0 (.disable 0 96#8) ∧ 96 ≤ (96#8).toNat) ∧
    (Ready offering 3 (.disable 3 20#8) ∧ (offering.source 20).binder ≠ some 3) ∧
    (Ready (serving false 1) 0 (.disable 0 20#8) ∧ ((serving false 1).source 20).enabled = false ∧
      ((serving false 1).source 20).binder = some 0) ∧
    (Ready (with20 (bound 0 0)) 0 (.disable 0 20#8) ∧ ((with20 (bound 0 0)).source 20).state = .quiet) ∧
    (Ready holding 0 (.disable 0 20#8) ∧ (holding.source 20).state = .claimed 0) ∧
    (Ready offering 0 (.disable 0 20#8) ∧ (offering.source 20).state = .pending ∧
      (offering.source 20).enabled = true) ∧
    (let s := lost.setQueue 0 ⟨records 8, false⟩;
      Ready s 0 (.disable 0 20#8) ∧ (s.source 20).state = .escalated) := by decide +kernel

theorem witness_ReadIncidentRemovesTheOldest :
    (Ready (withQueue ⟨records 8, true⟩) 1 (.readIncident 1) ∧
      ((withQueue ⟨records 8, true⟩).queue 1).records = ⟨.released, 21, some 2, 0#8, 8000#32⟩ :: records 7) ∧
    (Ready (withQueue ⟨records 1, true⟩) 1 (.readIncident 1) ∧
      ((withQueue ⟨records 1, true⟩).queue 1).records = [⟨.released, 21, some 2, 0#8, 8000#32⟩]) ∧
    Ready active 1 (.readIncident 1) ∧ (active.queue 1).records = [] := by decide +kernel

theorem witness_IncidentsGoToTheBinder :
    (offering.source 20).binder = some 0 ∧ ((offering.setQueue 0 ⟨records 7, false⟩).queue 0).records.length < 8 ∧
      ((offering.setQueue 0 ⟨records 8, false⟩).queue 0).records.length = 8 := by decide +kernel

theorem witness_PortClearFirstParts :
    Ready (withQueue ⟨records 8, true⟩) 1 (.portClear 1) ∧
      Ready ((withQueue ⟨records 8, true⟩).setLink 1
        { Link.default with transaction := .processing, inHand := some ⟨.portClear, some (.portClear 1), true⟩ }) 1
        (.portClear 1) ∧
      (withLink { Link.default with clearing := .offerUnitNext }).inHold = false ∧
      ((withLink { Link.default with clearing := .offerUnitNext }).link 1).clearing = .offerUnitNext := by decide +kernel

/-- Port P2 holds S20 of P0 with count 14, has lost S21, borrows S22 of P1, and its port clear has reached the Source
Table. -/
def clearing : State :=
  ((((activeAt 8000).setSource 20 (busyRec 0 40 (.claimed 2) 14)).setSource 22
    { bound 1 0 with borrower := some 2 }).setClaimList 2 [⟨21, 50, .retracted, 9#32⟩, ⟨20, 40, .held, 10#32⟩]).setLink 2
    { Link.default with
      clearing := .sourceTableNext, inHand := some ⟨.portClear, some (.portClear 2), false⟩ }

theorem witness_PortClearReturnsClaimsAndEndsLoans :
    clearing.inHold = false ∧ (clearing.link 2).clearing = .sourceTableNext ∧ clearing.ClaimsSound :=
  ⟨by decide +kernel, by decide +kernel, by decide +kernel, by decide +kernel, by decide +kernel⟩

theorem witness_SettingsAreReadAndWritten :
    (Ready active 3 (.readSetting 3 0#8) ∧ Ready active 3 (.readSetting 3 3#8) ∧ Ready active 3 (.readSetting 3 4#8) ∧
      4 ≤ (4#8).toNat) ∧
    (Ready active 3 (.writeSettingControlSet 3 0#16) ∧ Ready active 3 (.writeSettingControlSet 3 16#16) ∧
      16 ≤ (16#16).toNat ∧ Ready active 3 (.writeSettingControlSet 3 1#16) ∧
      Ready active 3 (.writeSettingControlSet 3 15#16) ∧ (15#16).toNat < 16 ∧
      active.settings.controlSet.getLsbD (3 : Port).val = true) ∧
    (let s := { active with settings := { active.settings with controlSet := 7#4 } };
      s.settings.controlSet.getLsbD (3 : Port).val = false ∧ Ready s 3 (.writeSettingControlSet 3 15#16) ∧
        Ready s 3 (.writeSettingWatchHoldGroupMask 3 255#16) ∧ Ready s 3 (.writeSettingWatchHoldSegmentMask 3 0#16) ∧
        Ready s 3 (.writeSettingLastResetCause 3 0#16)) ∧
    (Ready active 3 (.writeSettingWatchHoldGroupMask 3 256#16) ∧ 256 ≤ (256#16).toNat ∧
      Ready active 3 (.writeSettingWatchHoldGroupMask 3 255#16) ∧ (255#16).toNat < 256 ∧
      Ready active 3 (.writeSettingWatchHoldSegmentMask 3 256#16) ∧
      Ready active 3 (.writeSettingWatchHoldSegmentMask 3 255#16) ∧
      Ready active 3 (.writeSettingLastResetCause 3 256#16) ∧
      Ready active 3 (.writeSettingLastResetCause 3 255#16)) := by decide +kernel

/-- The part with the control set without P3. -/
def uncontrolled (s : State) : State := { s with settings := { s.settings with controlSet := 7#4 } }

theorem witness_WatchFreezesTheUnwatchedLines :
    (Ready (uncontrolled holding) 3 (.watch 3) ∧ (uncontrolled holding).settings.controlSet.getLsbD (3 : Port).val = false) ∧
    (Ready holding 3 (.watch 3) ∧ holding.settings.controlSet.getLsbD (3 : Port).val = true ∧
      ∃ q, ∃ e ∈ holding.claimList q, e.status = .held) ∧
    (Ready (withLink { Link.default with clearing := .offerUnitNext }) 3 (.watch 3) ∧
      ∃ q, ((withLink { Link.default with clearing := .offerUnitNext }).link q).clearing ≠ .idle) ∧
    (Ready lost 3 (.watch 3) ∧ (∀ q, ∀ e ∈ lost.claimList q, e.status = .retracted) ∧
      ∀ q, (lost.link q).clearing = .idle) ∧
    (let s := ((lost.setTimer 18 (some ⟨.wait, 5540#32, false⟩)).setTimer 19 (some ⟨.wait, 5541#32, false⟩)).setTimer 30
        (some ⟨.wait, 5500#32, true⟩);
      Ready s 3 (.watch 3) ∧ s.timer 17 = none ∧
        (s.timer 18 = some ⟨.wait, 5540#32, false⟩ ∧ (5540#32 : Time) = s.partTime) ∧
        (s.timer 19 = some ⟨.wait, 5541#32, false⟩ ∧ ((5541#32 : Time) - s.partTime).toNat = 1) ∧
        ((71075#32 : Time) - s.partTime).toNat = 65535 ∧ s.timer 30 = some ⟨.wait, 5500#32, true⟩) := by
  decide +kernel

theorem witness_DormantClearsThePart :
    (Ready (uncontrolled holding) 3 (.dormant 3) ∧
      (uncontrolled holding).settings.controlSet.getLsbD (3 : Port).val = false) ∧
    (Ready holding 3 (.dormant 3) ∧ holding.settings.controlSet.getLsbD (3 : Port).val = true ∧
      ∃ q, ∃ e ∈ holding.claimList q, e.status = .held) ∧
    (Ready (withLink { Link.default with clearing := .sourceTableNext }) 3 (.dormant 3) ∧
      ∃ q, ((withLink { Link.default with clearing := .sourceTableNext }).link q).clearing ≠ .idle) ∧
    (Ready lost 3 (.dormant 3) ∧ (∀ q, ∀ e ∈ lost.claimList q, e.status = .retracted) ∧
      ∀ q, (lost.link q).clearing = .idle) ∧
    (let s := inHand 3 .dormant (.dormant 3) lost;
      Ready s 3 (.dormant 3) ∧ (s.link 3).answerWanted = true ∧ (s.link 3).transaction = .processing) := by decide +kernel

theorem witness_WakeByPowerState :
    (∀ w ∈ [PowerState.active, .waking, .init, .failed, .watch, .dormant],
      ({ s9At 52 ⟨true, false, false, none, []⟩ with power := w } : State).handsOn 1 (.wake 1) = true) ∧
    (let s := { s9At 52 ⟨true, false, false, none, []⟩ with
        power := .watch, settings := { State.reset.settings with groupMask := 4#8 } };
      s.watched 9 = false ∧ (s.line 9).pin ≠ (s.line 9).qualified ∧ (s.source (sourceOf 9)).qualify ≠ 0 ∧
        s.watched 10 = false ∧ (s.line 10).pin = (s.line 10).qualified) ∧
    (let s := { active.setLine 9 ⟨true, false, false, none, []⟩ with power := .watch };
      s.watched 9 = false ∧ (s.line 9).pin ≠ (s.line 9).qualified ∧ (s.source (sourceOf 9)).qualify = 0 ∧
        s.handsOn 1 (.wake 1) = true) ∧
    ({ s9At 52 Line.default with power := .watch } : State).watched 9 = true ∧
    (let s := { inHand 1 .wake (.wake 1) active with power := .dormant };
      s.handsOn 1 (.wake 1) = true ∧ (s.link 1).answerWanted = true ∧ (s.link 1).transaction = .processing) := by
  decide +kernel

theorem witness_ResetIsASoftReset :
    (∀ w ∈ [PowerState.active, .watch, .waking, .failed],
      ({ holding with power := w } : State).handsOn 3 (.reset 3) = true ∧
        ({ holding with power := w } : State).settings.controlSet.getLsbD (3 : Port).val = true) ∧
    (uncontrolled holding).handsOn 3 (.reset 3) = true ∧
      (uncontrolled holding).settings.controlSet.getLsbD (3 : Port).val = false ∧
      ((inHand 3 .reset (.reset 3) holding).link 3).answerWanted = true := by decide +kernel

theorem witness_TransactionEdges :
    (active.inHold = false ∧ (active.link 1).transaction = .deselected) ∧
    (let s := { State.reset with hold := .pin };
      s.inHold = true ∧ (s.link 1).transaction = .deselected) ∧
    (∀ d ∈ [Transaction.receiving, .processing, .draining],
      let s := withLink { Link.default with transaction := d };
      s.inHold = false ∧ (s.link 1).transaction = d) ∧
    (let s := withLink { Link.default with transaction := .answering, answerFrame := some ⟨0x22#8, .noAnswer, []⟩ };
      (s.link 1).transaction = .answering ∧ (s.link 1).answerFrame = some ⟨0x22#8, .noAnswer, []⟩) ∧
    ((withLink { Link.default with transaction := .answering }).link 1).transaction = .answering ∧
    ((inHand 1 .top (.top 1) active).link 1).transaction ≠ .deselected := by decide +kernel

theorem witness_FrameCompletionIsJudged :
    ((active.link 1).transaction ≠ .receiving ∧ parseFrame [0x01#8, 0x00#8] = none) ∧
    (((receiving 1 active).link 1).transaction = .receiving ∧ (receiving 1 active).power ≠ .dormant) ∧
    (parseFrame [0x01#8, 0x00#8, 0x14#8] = some ⟨0x01#8, 0x00#8, [], 0x14#8⟩ ∧
      (⟨0x01#8, 0x00#8, [], 0x14#8⟩ : Frame).checkRight = false) ∧
    (parseFrame (0x00#8 :: [0x00#8, 0x00#8]) = some ⟨0x00#8, 0x00#8, [], 0x00#8⟩ ∧
      (⟨0x00#8, 0x00#8, [], 0x00#8⟩ : Frame).checkRight = true ∧ HostCode.ofByte 0x00#8 = none) ∧
    (parseFrame (frameOf .claim []) = some ⟨0x04#8, 0x00#8, [], crc8 [0x04#8, 0x00#8]⟩ ∧
      HostCode.ofByte 0x04#8 = some .claim ∧ ([] : List Byte).length ≠ HostCode.claim.argLength) ∧
    (parseFrame (frameOf .claim [95#8]) = some ⟨0x04#8, 0x01#8, [95#8], crc8 [0x04#8, 0x01#8, 95#8]⟩ ∧
      [95#8].length = HostCode.claim.argLength ∧ PowerState.watch.passes .claim = false ∧
      decodeCommand 1 .claim [95#8] = .row (.claim 1 95#8) ∧ PowerState.active.passes .claim = true) := by
  decide +kernel

/-- CONFIGURE of identifier 9 and WRITE_SETTING of identifier 4, which no row has, in ACTIVE. -/
theorem witness_FrameCompletionIsJudged_unknownIdentifier :
    (∀ b ∈ [0#8, 9#8, 255#8], decodeCommand 1 .configure [20#8, b, 0#8, 0#8] = .unknownIdentifier) ∧
      [20#8, 9#8, 0#8, 0#8].length = HostCode.configure.argLength ∧ PowerState.active.passes .configure = true ∧
      decodeCommand 1 .writeSetting [4#8, 0#8, 0#8] = .unknownIdentifier ∧
      [4#8, 0#8, 0#8].length = HostCode.writeSetting.argLength ∧ PowerState.active.passes .writeSetting = true ∧
      ((receiving 1 active).link 1).inHand = none := by
  decide +kernel

theorem witness_FrameCompletionIsJudged_behindACommand :
    (∀ w ∈ [none, some ⟨HostCode.top, some (Instr.top 1), false⟩],
      let s := withLink { Link.default with
        transaction := .receiving, inHand := some ⟨.claim, some (.claim 1 95#8), false⟩, waiting := w };
      (s.link 1).transaction = .receiving ∧ (s.link 1).inHand ≠ none ∧ s.power.passes .claim = true) ∧
      (none : Option Held) = none ∧ some ⟨HostCode.top, some (Instr.top 1), false⟩ ≠ (none : Option Held) := by
  decide +kernel

theorem witness_DormantHearsOnlyWake :
    let s := { receiving 1 State.reset with power := .dormant };
    ((s.link 1).transaction = .receiving ∧ s.power = .dormant ∧ (s.link 1).inHand = none) ∧
      parseFrame (frameOf .wake []) = some ⟨0x34#8, 0#8, [], crc8 [0x34#8, 0#8]⟩ ∧
      parseFrame (frameOf .status []) = some ⟨0x01#8, 0#8, [], 0x15#8⟩ ∧
      (⟨0x01#8, 0#8, [], 0x15#8⟩ : Frame) ≠ ⟨0x34#8, 0#8, [], crc8 [0x34#8, 0#8]⟩ := by decide +kernel

theorem witness_AnswersGoOutAndAreKept :
    let h : Held := ⟨.top, some (.top 1), true⟩;
    let l : Link := { Link.default with transaction := .processing, inHand := some h };
    let cutOff : Link := { l with
      transaction := .receiving, inHand := some { h with isOpen := false }, waiting := some ⟨.top, some (.top 1), false⟩ };
    l.inHand = some h ∧ (∀ w ∈ l.waiting, w.row ≠ none) ∧ h.isOpen = true ∧ l.transaction = .processing ∧
      cutOff.inHand = some { h with isOpen := false } ∧ ∀ w ∈ cutOff.waiting, w.row ≠ none := by decide +kernel

/-- A WRITE_SETTING whose identifier names no field waits, open or closed, in a power state that passes it or not. -/
theorem witness_AnswersGoOutAndAreKept_noField :
    (∀ o ∈ [true, false],
      let w : Held := ⟨.writeSetting, none, o⟩;
      let h : Held := ⟨.top, some (.top 1), false⟩;
      let l : Link := { Link.default with
        transaction := if o then .processing else .receiving, inHand := some h, waiting := some w };
      l.inHand = some h ∧ h.isOpen = false ∧ l.waiting = some w ∧ w.row = none ∧ w.isOpen = o) ∧
      PowerState.active.passes .writeSetting = true ∧
      ∀ power ∈ [PowerState.watch, .waking, .dormant], power.passes .writeSetting = false := by decide +kernel

theorem witness_PowerRefusalsChangeNothingElse :
    (Instr.top 1).hostForm = some (1, .top, []) ∧
      (∀ w ∈ [PowerState.init, .watch, .waking, .dormant, .failed],
        ({ active with power := w } : State).handsOn 1 (.top 1) = true ∧ w.passes .top = false) ∧
      ({ State.reset with hold := .pin } : State).inHold = true := by decide +kernel

theorem witness_CommandsKeepOtherPortsLinks :
    (Instr.claimTop 0).hostForm = some (0, .claimTop, []) ∧ exec (.claimTop 0) offering = .next (run (.claimTop 0) offering) ∧
      HostCode.claimTop ≠ .reset ∧ HostCode.claimTop ≠ .dormant ∧ HostCode.claimTop ≠ .wake ∧
      (Instr.wake 0).hostForm = some (0, .wake, []) ∧ offering.power ≠ .dormant :=
  ⟨by decide, rfl, by decide, by decide, by decide, by decide, by decide +kernel⟩

theorem witness_RawChangesAndSpans :
    (State.reset.sampled 9 = false) ∧
    (let s := s9At 0 Line.default;
      s.sampled 9 = true ∧ (s.line 9).reports = [] ∧ (s.line 9).raw ≠ true ∧ true ≠ (s.line 9).qualified ∧
        (s.source (sourceOf 9)).qualify ≠ 0) ∧
    (let s := s9At 2 ⟨true, true, false, some 0, []⟩;
      s.sampled 9 = true ∧ (s.line 9).reports = [] ∧ (s.line 9).raw ≠ false ∧ false = (s.line 9).qualified) ∧
    (active.sampled 9 = true ∧ (active.line 9).raw ≠ true ∧ (active.source (sourceOf 9)).qualify = 0) ∧
    (let s := s9At 9 ⟨true, true, false, some 5, []⟩;
      (s.line 9).span = some 5 ∧ (s.source (sourceOf 9)).qualify.val ≤ s.samplerTime - 5) ∧
    (let s := s9At 8 ⟨true, true, false, some 5, []⟩;
      s.sampled 9 = true ∧ (s.line 9).span = some 5 ∧
        s.samplerTime - 5 < (s.source (sourceOf 9)).qualify.val) := by decide +kernel

theorem witness_QualifiedChangeMapsToAnEvent :
    (∀ e ∈ [Edge.rise, .fall],
      let s := s9At 9 ⟨e.level, e.level, !e.level, none, [e, .rise]⟩;
      s.sampled 9 = true ∧ (s.line 9).reports = [e, .rise]) ∧
    (let s := s9At 9 ⟨true, true, false, none, [.rise]⟩;
      (s.source (sourceOf 9)).enabled = true ∧ (s.source (sourceOf 9)).trigger = .rising) ∧
    (let s := { s9At 9 ⟨true, true, false, none, [.rise]⟩ with power := .watch };
      s.sampled 9 = true ∧ (s.line 9).reports = [.rise] ∧ s.power = .watch) := by decide +kernel

theorem witness_WakeReportAndWakingEnd :
    (({ offering with power := .watch, wakeReports := 1 } : State).wakeReports = 0 + 1) ∧
    (({ offering with wakeReports := 1 } : State).wakeReports = 0 + 1 ∧ offering.power ≠ .watch) ∧
    (waiting.power = .waking ∧ (waiting.partTime - waiting.wakingSince).toNat < 20) ∧
    (let s := { waiting with wakingSince := 980#32 };
      s.power = .waking ∧ 20 ≤ (s.partTime - s.wakingSince).toNat) ∧
    (let s := { waiting with wakingSince := 981#32 };
      (s.partTime - s.wakingSince).toNat = 19) := by decide +kernel

theorem witness_TimerExpiryIsDelivered :
    (let s := offering.setTimer 20 (some ⟨.wait, 1000#32, false⟩);
      s.timer 20 = some ⟨.wait, 1000#32, false⟩ ∧ s.power = .active ∧ (1000#32 : Time) = s.partTime) ∧
    (let s := offering.setTimer 20 (some ⟨.wait, 1001#32, false⟩);
      s.timer 20 = some ⟨.wait, 1001#32, false⟩ ∧ 1 ≤ ((1001#32 : Time) - s.partTime).toNat) ∧
    ((66535#32 : Time) - offering.partTime).toNat = 65535 ∧
    (let s := { offering with power := .watch }.setTimer 20 (some ⟨.wait, 1000#32, false⟩);
      s.timer 20 = some ⟨.wait, 1000#32, false⟩ ∧ s.power ≠ .active ∧ s.power ≠ .waking) := by decide +kernel

/-- An expiry at the microsecond in which WATCH is taken stays delivered, and is taken in WAKING (R105, R162). -/
theorem test_expiry_survives_watch :
    ((run (.waitExpiry 20) (run (.wake 3) (run (.watch 3)
      (offering.setTimer 20 (some ⟨.wait, 1000#32, false⟩))))).source 20).state = .escalated := by decide +kernel

theorem witness_WaitExpiryEscalates :
    (∀ s ∈ [waiting, { waiting with power := .active }, waiting.setQueue 0 ⟨records 8, false⟩],
      (s.power = .active ∨ s.power = .waking) ∧ s.timer 20 = some ⟨.wait, 1000#32, true⟩ ∧
        (s.source 20).state = .pending ∧ (s.source 20).binder = some 0) ∧
    (let s := waiting.setTimer 20 (some ⟨.wait, 1000#32, false⟩);
      s.timer 20 = some ⟨.wait, 1000#32, false⟩ ∧ (1000#32 : Time) = s.partTime) := by decide +kernel

theorem witness_ServiceExpiryRetracts :
    (∀ s ∈ [serving true 0, serving true 14, serving true 15, serving false 14],
      s.power = .active ∧ s.timer 20 = some ⟨.service, 1000#32, true⟩ ∧ (s.source 20).state = .claimed 2 ∧
        (s.source 20).binder = some 0) ∧
    (let s := (serving true 0).setTimer 20 (some ⟨.service, 1000#32, false⟩);
      s.timer 20 = some ⟨.service, 1000#32, false⟩ ∧ (1000#32 : Time) = s.partTime) := by decide +kernel

theorem witness_TableCheckEndsInit :
    (State.reset.power = .init ∧ State.reset.inHold = false ∧ State.reset.settings.controlSet ≠ 0#4) ∧
      ({ State.reset with settings := { State.reset.settings with controlSet := 0#4 } } : State).settings.controlSet =
        0#4 := by decide +kernel

theorem witness_ResetPinsHoldAndRelease :
    (offering.resetnLow = false ∧ offering.supplyReady = true) ∧
    (let s := run .resetnLow offering;
      s.resetnLow = true ∧ s.supplyReady = true ∧ s.hold = .pin) ∧
    (let s := run .powerOn offering;
      s.resetnLow = false ∧ s.supplyReady = false ∧ s.hold = .powerOn) ∧
    (let s := run .resetnLow (run .powerOn offering);
      s.resetnLow = true ∧ s.supplyReady = false) := by decide +kernel

/-! ## Witnesses of the invariants: a busy part that meets them, with a command waiting -/

/-- P0 holds S20 and is offered S30; S21 is lost to it; P1's queue holds a record; TOP waits behind CLAIM_TOP at P0, with
CLAIM_TOP at the front of the queue. -/
def busy : State :=
  let records := ((active.setSource 20 (busyRec 0 40 (.claimed 0) 1)).setSource 30 (busyRec 0 30 .pending 15)).setSource 70
    { bound 1 0 with borrower := some 2, posters := 6#4 }
  let timed := (records.setTimer 20 (some ⟨.service, 500#32, false⟩)).setTimer 30 (some ⟨.wait, 400#32, false⟩)
  let listed := (timed.setClaimList 0 [⟨21, 50, .retracted, 9#32⟩, ⟨20, 40, .held, 10#32⟩]).setQueue 1
    ⟨[⟨.released, 70, some 2, 0#8, 8#32⟩], true⟩
  let linked := listed.setLink 0 { Link.default with
    transaction := .processing
    inHand := some ⟨.claimTop, some (.claimTop 0), false⟩
    waiting := some ⟨.top, some (.top 0), true⟩ }
  { State.follow active linked with pending := [.claimTop 0] }

/-- What `busy` becomes. -/
def busyNext : State := run (.claimTop 0) { busy with pending := [] }

theorem busy_step : step busy = .next busyNext := rfl

theorem busy_claims_S30 : (busyNext.source 30).state = .claimed 0 := by decide +kernel

/-- A timer's fit, read off by evaluation. -/
theorem timerFits_of_checks {r : SourceRec} {t : Option Timer}
    (h : ∀ x ∈ t, (x.kind = .wait → r.state = .pending) ∧ (x.kind = .service → ∃ p, r.state = .claimed p)) :
    timerFits r t := by
  unfold timerFits
  split
  · trivial
  · split
    · exact (h _ rfl).1 ‹_›
    · exact (h _ rfl).2 ‹_›

theorem witness_StepKeepsTheRecordsSound : busy.RecordsSound ∧ step busy = .next busyNext := by
  refine ⟨fun i => ⟨⟨?_, ?_, ?_, ?_, ?_, ?_, ?_, ?_⟩, timerFits_of_checks ?_⟩, busy_step⟩ <;> revert i <;> decide +kernel

theorem witness_StepKeepsTheClaimsSound : busy.ClaimsSound ∧ step busy = .next busyNext :=
  ⟨⟨by decide +kernel, by decide +kernel, by decide +kernel⟩, busy_step⟩

theorem witness_StepKeepsTheClaimsNested : busy.ClaimsNest ∧ step busy = .next busyNext :=
  ⟨show ∀ _, _ by decide +kernel, busy_step⟩

theorem witness_StepKeepsQueuesControlSetAndLinks :
    busy.QueuesSound ∧ busy.ControlSetNonempty ∧ busy.LinksSound ∧ step busy = .next busyNext :=
  ⟨show ∀ _, _ by decide +kernel, show _ ≠ _ by decide +kernel, show ∀ _, _ by decide +kernel, busy_step⟩

theorem witness_StepKeepsTheAttentionLines : busy.AttentionSound ∧ step busy = .next busyNext :=
  ⟨show _ ∧ _ by decide +kernel, busy_step⟩

/-- WATCH with a lost claim, and RESET at the front of the queue. -/
def resting : State :=
  { active.setClaimList 0 [⟨21, 50, .retracted, 9#32⟩] with power := .watch, pending := [.reset 1] }

theorem resting_step : step resting = .next (run (.reset 1) { resting with pending := [] }) := rfl

theorem witness_StepKeepsTheRestStates :
    (resting.RestSound ∧ resting.NoClaimAtRest ∧
      step resting = .next (run (.reset 1) { resting with pending := [] })) ∧
      State.reset.power.keepsNothing = true ∧ resting.power = .watch := by
  refine ⟨⟨⟨?_, ?_, ?_, ?_, ?_, ?_, ?_, ?_, ?_⟩, show _ → _ from ?_, resting_step⟩, ?_, ?_⟩ <;> decide +kernel

end Sys2Proof.Tests
end

/-! PROOF. Every step keeps every record sound and every timer fitting its state (O54). A record is changed in its state,
count and enabled bit, or in its fields; a source without a binder holds the default record, so every change but BIND and
UNBIND is made on a bound source. -/

namespace Sys2Proof.Machine

/-! ## One record -/

theorem SourceRec.sound_default (i : SourceNo) : SourceRec.default.Sound i := by
  constructor <;> simp [SourceRec.default]

/-- An enabled source has a binder, since the default record is disabled. -/
theorem SourceRec.Sound.bound_of_enabled {r : SourceRec} {i : SourceNo} (h : r.Sound i) (he : r.enabled = true) :
    r.binder ≠ none := by
  intro hn
  rw [h.unbound hn] at he
  cases he

/-- A source that is not QUIET has a binder, since the default record is QUIET. -/
theorem SourceRec.Sound.bound_of_not_quiet {r : SourceRec} {i : SourceNo} (h : r.Sound i) (hs : r.state ≠ .quiet) :
    r.binder ≠ none := by
  intro hn
  rw [h.unbound hn] at hs
  exact hs rfl

/-- A bound source brought into another state, with a count that fits it. -/
theorem SourceRec.Sound.withState {r : SourceRec} {i : SourceNo} (h : r.Sound i) (hb : r.binder ≠ none) {e : Bool}
    {st : SrcState} {c : Nat} (hc : c ≤ 15) (hq : st = .quiet → c = 0)
    (hw : st = .pending ∨ st = .escalated → 1 ≤ c) (hd : e = false → st = .quiet ∨ ∃ p, st = .claimed p) :
    ({ r with enabled := e, state := st, count := c } : SourceRec).Sound i :=
  { h with count_le := hc, quiet_count := hq, waiting_count := hw, disabled_state := hd, unbound := (absurd · hb) }

/-- A source brought back to QUIET, disabled or not: a default record stays the default record. -/
theorem SourceRec.Sound.quieted {r : SourceRec} {i : SourceNo} (h : r.Sound i) :
    ({ r with state := .quiet, count := 0 } : SourceRec).Sound i := by
  by_cases hb : r.binder = none
  · rw [h.unbound hb]; exact sound_default i
  · exact h.withState hb (by simp) (fun _ => rfl) (by simp) (fun _ => .inl rfl)

/-- An enabled source brought to PENDING or ESCALATED with a count of 1 to 15. -/
theorem SourceRec.Sound.waiting {r : SourceRec} {i : SourceNo} (h : r.Sound i) (he : r.enabled = true) {st : SrcState}
    (hs : st = .pending ∨ st = .escalated) {c : Nat} (h1 : 1 ≤ c) (hc : c ≤ 15) :
    ({ r with state := st, count := c } : SourceRec).Sound i :=
  h.withState (h.bound_of_enabled he) hc (by rintro rfl; simp at hs) (fun _ => h1) (by simp [he])

/-- The borrower of a bound source set to none or to a port other than the binder. -/
theorem SourceRec.Sound.withBorrower {r : SourceRec} {i : SourceNo} (h : r.Sound i) {q : Option Port}
    (hb : q ≠ none → r.binder ≠ none ∧ q ≠ r.binder) : ({ r with borrower := q } : SourceRec).Sound i := by
  refine { h with unbound := fun hn => ?_, borrower_ne := fun hq => (hb hq).2 }
  have hq : q = none := by_contra fun hq => (hb hq).1 hn
  rw [h.unbound hn, hq]
  rfl

theorem raisedCount_le {c : Nat} (h : c ≤ 15) : raisedCount c ≤ 15 := by unfold raisedCount; split <;> omega

theorem one_le_raisedCount (c : Nat) : 1 ≤ raisedCount c := by unfold raisedCount; split <;> omega

/-! ## One timer -/

theorem timerFits_none (r : SourceRec) : timerFits r none := trivial

/-- Only the state of the record matters to its timer. -/
theorem timerFits.of_state {r r' : SourceRec} {t : Option Timer} (h : timerFits r t) (hs : r'.state = r.state) :
    timerFits r' t := by
  unfold timerFits at h ⊢
  rw [hs]
  exact h

/-- Only the kind of the timer matters to its record. -/
theorem timerFits.of_kind {r : SourceRec} {x y : Timer} (h : timerFits r (some x)) (hk : y.kind = x.kind) :
    timerFits r (some y) := by
  unfold timerFits at h ⊢
  dsimp only at h ⊢
  rw [hk]
  exact h

theorem timerFits_wait {r : SourceRec} (hs : r.state = .pending) (now : Time) (limit : Half) :
    timerFits r (timerFrom now .wait limit) := by
  unfold timerFrom
  split <;> [exact timerFits_none r; exact hs]

theorem timerFits_service {r : SourceRec} {p : Port} (hs : r.state = .claimed p) (now : Time) (limit : Half) :
    timerFits r (timerFrom now .service limit) := by
  unfold timerFrom
  split <;> [exact timerFits_none r; exact ⟨p, hs⟩]

/-! ## The records of the part -/

/-- A change of one source leaves the records sound where the changed record is sound and its timer fits. -/
theorem State.RecordsSound.change {s t : State} (h : s.RecordsSound) {i : SourceNo} (ho : KeepsOtherSources i s t)
    (hr : (t.source i).Sound i) (ht : timerFits (t.source i) (t.timer i)) : t.RecordsSound := by
  intro j
  by_cases hj : j = i
  · subst hj; exact ⟨hr, ht⟩
  · rw [(ho j hj).1, (ho j hj).2]; exact h j

/-- A field of a bound source written, its state and timer kept. -/
theorem State.RecordsSound.setSource {s : State} (h : s.RecordsSound) {i : SourceNo} {r : SourceRec} (hr : r.Sound i)
    (hs : r.state = (s.source i).state) : (s.setSource i r).RecordsSound := by
  refine h.change (i := i) (fun j hj => ?_) ?_ ?_
  · simp [Ne.symm hj]
  · simpa using hr
  · simpa using (h i).2.of_state hs

theorem State.RecordsSound.stopTimer {s : State} (h : s.RecordsSound) (i : SourceNo) : (s.stopTimer i).RecordsSound := by
  refine h.change (i := i) (fun j hj => ?_) ?_ ?_
  · simp [Ne.symm hj]
  · simpa using (h i).1
  · simpa using timerFits_none _

/-- Records and timers that read the same are as sound. -/
theorem State.RecordsSound.of_eq {s t : State} (h : s.RecordsSound) (hs : t.sources = s.sources)
    (ht : t.timers = s.timers) : t.RecordsSound := by
  intro i
  rw [State.source, State.timer, hs, ht]
  exact h i

/-! ## The operations on one source -/

namespace State.RecordsSound

variable {s : State} (h : s.RecordsSound) {i : SourceNo}

include h

theorem makePending {c : Nat} (he : (s.source i).enabled = true) (h1 : 1 ≤ c) (hc : c ≤ 15) :
    (s.makePending i c).RecordsSound := by
  refine h.change (i := i) (fun j hj => ?_) ?_ ?_
  · simp [State.source_makePending, State.timer_makePending, Ne.symm hj]
  · simpa [State.source_makePending] using (h i).1.waiting he (.inl rfl) h1 hc
  · simpa [State.source_makePending, State.timer_makePending] using timerFits_wait rfl _ _

/-- A source goes QUIET with its timer stopped. -/
theorem makeQuiet (ht : s.timer i = none) : (s.makeQuiet i).RecordsSound := by
  refine h.change (i := i) (fun j hj => ?_) ?_ ?_
  · simp [State.source_makeQuiet, Ne.symm hj]
  · simpa [State.source_makeQuiet] using (h i).1.quieted
  · simpa [ht] using timerFits_none _

theorem raiseCount (he : (s.source i).enabled = true) (hq : (s.source i).state ≠ .quiet) (now : Time) :
    (s.raiseCount i now).RecordsSound := by
  have hr := (h i).1
  refine h.change (i := i) (fun j hj => ?_) ?_ ?_
  · simp [State.source_raiseCount, Ne.symm hj]
  · simpa [State.source_raiseCount] using hr.withState (hr.bound_of_enabled he) (raisedCount_le hr.count_le)
      (absurd · hq) (fun _ => one_le_raisedCount _) (by simp [he])
  · rw [State.source_raiseCount, if_pos rfl, State.timer_raiseCount]
    exact (h i).2.of_state rfl

theorem takeEvent (he : (s.source i).enabled = true) : (s.takeEvent i).RecordsSound := by
  unfold State.takeEvent
  split
  · exact h.makePending he le_rfl (by decide)
  all_goals exact h.raiseCount he (by simp [*]) _

theorem returnClaim : (s.returnClaim i).RecordsSound := by
  refine h.change (i := i) (fun j hj => ?_) ?_ ?_ <;>
    simp only [State.source_returnClaim, State.timer_returnClaim, if_true]
  · simp [Ne.symm hj]
  · split
    · exact (h i).1.waiting ‹_› (.inl rfl) (one_le_raisedCount _) (raisedCount_le (h i).1.count_le)
    · exact (h i).1.quieted
  · split
    · exact timerFits_wait rfl _ _
    · exact timerFits_none _

/-- A claim is taken on an offered source, which is enabled. -/
theorem takeClaim {p : Port} (hof : s.offered p i = true) : (s.takeClaim p i).RecordsSound := by
  have he : (s.source i).enabled = true := by
    simp only [State.offered, SourceRec.candidateFor, Bool.and_eq_true] at hof
    exact hof.1.1
  have hr := (h i).1
  refine h.change (i := i) (fun j hj => ?_) ?_ ?_
  · simp [State.takeClaim, State.timer_startTimer, Ne.symm hj]
  · simpa [State.takeClaim] using hr.withState (hr.bound_of_enabled he) (Nat.zero_le 15) (fun _ => rfl)
      (by simp) (fun _ => .inr ⟨p, rfl⟩)
  · simpa [State.takeClaim, State.timer_startTimer] using timerFits_service rfl _ _

theorem completeClaim (p : Port) : (s.completeClaim p i).RecordsSound := by
  have hr : ((s.removeEntry p i).stopTimer i).RecordsSound := State.RecordsSound.stopTimer h i
  unfold State.completeClaim
  dsimp only
  split
  · split
    · exact hr.makePending ‹_› ‹_› (hr i).1.count_le
    · split
      · exact hr.makePending ‹_› le_rfl (by decide)
      · exact hr.makeQuiet (by simp)
  · exact hr.makeQuiet (by simp)

/-- The unbound record BIND finds is the default one. -/
theorem bindSource (p : Port) (hn : (s.source i).binder = none) : (s.bindSource p i).RecordsSound := by
  have hd := (h i).1.unbound hn
  refine h.setSource ?_ rfl
  rw [hd]
  constructor <;> simp_all [SourceRec.default]

theorem unbindSource : (s.unbindSource i).RecordsSound := by
  refine h.change (i := i) (fun j hj => ?_) ?_ ?_
  · simp [State.unbindSource, Ne.symm hj]
  · simpa [State.unbindSource] using SourceRec.sound_default i
  · simpa [State.unbindSource] using timerFits_none _

theorem setBorrower {q : Option Port} (hq : q ≠ none → (s.source i).binder ≠ none ∧ q ≠ (s.source i).binder) :
    (s.setBorrower i q).RecordsSound :=
  h.setSource ((h i).1.withBorrower hq) rfl

theorem writeQualify (hw : isPosted i = false) (hb : (s.source i).binder ≠ none) (v : Fin 16) :
    (s.writeQualify i v).RecordsSound := by
  have hv : (s.setSource i { s.source i with qualify := v }).RecordsSound :=
    h.setSource { (h i).1 with unbound := (absurd · hb), posted_fields := by simp [hw] } rfl
  exact hv.of_eq (State.sources_requalifyLine _ _ _) (State.timers_requalifyLine _ _ _)

theorem enableSource (hb : (s.source i).binder ≠ none) : (s.enableSource i).RecordsSound := by
  unfold State.enableSource
  dsimp only
  split
  · exact h
  · rename_i he
    have hr := (h i).1
    have ht : (s.setSource i { s.source i with enabled := true }).RecordsSound :=
      h.setSource (hr.withState hb hr.count_le hr.quiet_count hr.waiting_count (by simp)) rfl
    split
    · exact ht.takeEvent (by simp)
    · exact ht

theorem withdraw (hb : (s.source i).binder ≠ none) : (s.withdraw i).RecordsSound := by
  refine h.change (i := i) (fun j hj => ?_) ?_ ?_
  · simp [State.withdraw, Ne.symm hj]
  · simpa [State.withdraw] using
      (h i).1.withState hb (Nat.zero_le 15) (fun _ => rfl) (by simp) (fun _ => .inl rfl)
  · simpa [State.withdraw] using timerFits_none _

theorem disableSource (hb : (s.source i).binder ≠ none) : (s.disableSource i).RecordsSound := by
  have hr := (h i).1
  unfold State.disableSource
  dsimp only
  split
  · split
    · rename_i hs
      exact h.setSource (hr.withState hb (Nat.zero_le 15) (fun _ => rfl) (by simp [hs]) (fun _ => .inl hs)) rfl
    · exact h.withdraw hb
    · exact h.withdraw hb
    · rename_i p hs
      exact h.setSource (hr.withState hb hr.count_le hr.quiet_count (by simp [hs]) (fun _ => .inr ⟨p, hs⟩)) rfl
  · exact h

theorem escalate (hs : (s.source i).state = .pending) (time : Time) : (s.escalate i time).RecordsSound := by
  have hr := (h i).1
  have hb : (s.source i).binder ≠ none := hr.bound_of_not_quiet (by simp [hs])
  have he : (s.source i).enabled = true := by
    by_contra he
    simpa [hs] using hr.disabled_state (by simpa using he)
  refine h.change (i := i) (fun j hj => ?_) ?_ ?_
  · simp [State.escalate, Ne.symm hj]
  · simpa [State.escalate] using hr.waiting he (.inr rfl) (hr.waiting_count (.inl hs)) hr.count_le
  · simpa [State.escalate] using timerFits_none _

theorem retract (p : Port) (time : Time) : (s.retract p i time).RecordsSound := by
  have hr := (h i).1
  refine h.change (i := i) (fun j hj => ?_) ?_ ?_ <;> unfold State.retract <;> dsimp only <;>
    simp only [State.source_follow, State.timer_follow] <;> split
  · simp [State.source_raiseCount, Ne.symm hj]
  · simp [State.source_makeQuiet, Ne.symm hj]
  · rename_i he
    simpa [State.source_raiseCount] using
      hr.waiting (by simpa using he) (.inr rfl) (one_le_raisedCount _) (raisedCount_le hr.count_le)
  · simpa [State.source_makeQuiet] using hr.quieted
  · simpa using timerFits_none _
  · simpa using timerFits_none _

theorem releaseEntry (p : Port) (e : ClaimEntry) : (State.releaseEntry p s e).RecordsSound := by
  unfold State.releaseEntry
  split
  · exact (h.of_eq (by simp) (by simp)).returnClaim
  · exact h

theorem endLoan (p : Port) : (State.endLoan p s i).RecordsSound := by
  unfold State.endLoan
  split
  · exact (h.setBorrower (i := i) (q := none) (absurd rfl)).of_eq (by simp [State.setBorrower]) (by simp)
  · exact h

theorem clearTable (p : Port) : (s.clearTable p).RecordsSound := by
  have hl : (s.releaseClaims p).RecordsSound :=
    List.foldlRecOn (motive := State.RecordsSound) _ (State.releaseEntry p) h fun _ ht e _ => ht.releaseEntry p e
  refine State.RecordsSound.of_eq (s := (s.releaseClaims p).endLoans p) ?_ (State.sources_follow _ _)
    (State.timers_follow _ _)
  unfold State.endLoans
  generalize List.finRange 96 = l
  exact List.foldlRecOn (motive := State.RecordsSound) l (State.endLoan p) hl fun _ ht _ _ => ht.endLoan p

theorem takeChange (n : LineNo) (e : Edge) (rest : List Edge) : (s.takeChange n e rest).RecordsSound := by
  unfold State.takeChange
  dsimp only
  have ht : (s.setLine n { s.line n with qualified := e.level, reports := rest }).RecordsSound := h
  split
  · rename_i hc
    simp only [Bool.and_eq_true] at hc
    exact (ht.takeEvent hc.1).of_eq (by simp) (by simp)
  · exact ht

theorem deliverReached : s.deliverReached.RecordsSound := by
  intro i
  rw [State.source_deliverReached, State.timer_deliverReached]
  cases ht : s.timer i with
  | none => exact ⟨(h i).1, timerFits_none _⟩
  | some x => exact ⟨(h i).1, (show timerFits (s.source i) (some x) from ht ▸ (h i).2).of_kind rfl⟩

theorem deliver {x : Timer} (hx : s.timer i = some x) :
    (s.setTimer i (some { x with delivered := true })).RecordsSound := by
  refine h.change (i := i) (fun j hj => ?_) ?_ ?_
  · simp [Ne.symm hj]
  · simpa using (h i).1
  · rw [State.timer_setTimer_same]
    exact (show timerFits (s.source i) (some x) from hx ▸ (h i).2).of_kind rfl

end State.RecordsSound

theorem State.recordsSound_clear (s : State) (t : Settings) (power : PowerState) : (s.clear t power).RecordsSound := by
  intro i
  have hs : (s.clear t power).source i = SourceRec.default := by simp [State.clear, State.source, Table.at]
  have ht : (s.clear t power).timer i = none := by simp [State.clear, State.timer, Table.at]
  rw [hs, ht]
  exact ⟨SourceRec.sound_default i, timerFits_none _⟩

/-! ## Every operation, every step -/

/-- Every operation of the commands keeps the records sound. -/
theorem keptByOperations_recordsSound : KeptByOperations State.RecordsSound where
  pending _ _ h := h
  setLink _ _ _ h _ := h
  setLine _ _ _ h _ := h
  top _ _ h _ := h
  threshold _ _ _ h _ := h
  claim _ _ _ h _ ho _ := h.takeClaim ho
  complete _ p _ _ h _ _ _ := h.completeClaim p
  lost _ _ _ h _ := h
  defer s p i _ h _ _ _ := State.RecordsSound.returnClaim (s := s.removeEntry p i) h
  post _ _ h _ he := h.takeEvent he
  bind _ p _ h _ hn := h.bindSource p hn
  unbind _ _ h _ _ := h.unbindSource
  lend _ _ _ _ h _ hb hq := h.setBorrower fun _ => ⟨by simp [hb], by simpa [hb] using hq⟩
  recallLoan _ _ h _ := h.setBorrower (absurd rfl)
  returnLoan _ _ i h _ := (h.setBorrower (i := i) (q := none) (absurd rfl)).of_eq
    (by simp [State.returnSource]) (by simp [State.returnSource])
  priority _ _ i _ h _ hb := h.setSource { (h i).1 with unbound := by simp [hb] } rfl
  group _ _ i _ h _ hb := h.setSource { (h i).1 with unbound := by simp [hb] } rfl
  trigger _ _ i _ h _ hw hb := h.setSource { (h i).1 with unbound := by simp [hb], posted_fields := by simp [hw] } rfl
  qualify _ _ _ v h _ hw hb := h.writeQualify hw (by simp [hb]) v
  waitLimit _ _ i _ h _ hb := h.setSource { (h i).1 with unbound := by simp [hb] } rfl
  serviceLimit _ _ i _ h _ hb := h.setSource { (h i).1 with unbound := by simp [hb] } rfl
  fallback _ _ i _ h _ hb := h.setSource (i := i) { (h i).1 with unbound := by simp [hb] } rfl
  posters _ _ i _ h _ hp hb := h.setSource { (h i).1 with unbound := by simp [hb], wired_posters := by simp [hp] } rfl
  enable _ _ _ h _ hb := h.enableSource (by simp [hb])
  disable _ _ _ h _ hb := h.disableSource (by simp [hb])
  readIncident _ _ _ _ h _ _ := h
  emptyQueue _ _ h _ := h
  clearOffers _ _ h _ := h
  clearTable _ p h _ := h.clearTable p
  settings _ _ h _ _ := h
  watch _ h _ _ _ := h
  startWaking _ h _ := h
  wakingEnd _ h _ := h
  clear s t power _ _ _ := s.recordsSound_clear t power
  pins _ _ _ h := h
  hold _ _ h _ := h
  takeChange _ n e rest h _ := h.takeChange n e rest
  wakeReports _ _ h := h
  deliver _ _ _ h ht := h.deliver ht
  deliverReached _ h := h.deliverReached
  stopTimer _ i h := h.stopTimer i
  escalate _ _ time h _ hs := h.escalate hs time
  retract _ p _ time h _ _ := h.retract p time
  enterActive _ h _ _ := h
  enterFailed _ _ h _ _ := h
  counters _ _ _ _ h _ := h

/-- Settles O54: the records are sound after every step, since every operation of the commands keeps them so. -/
theorem stepKeepsTheRecordsSound : Obligations.StepKeepsTheRecordsSound :=
  fun _ _ h hs => keptByOperations_recordsSound.step h hs

end Sys2Proof.Machine

/-! PROOF. Every step keeps INIT, DORMANT and FAILED at their reset values, and WATCH and WAKING without a HELD entry (O59).
Most operations are used in ACTIVE, where neither claim says more than that no hold stands. -/

namespace Sys2Proof.Machine

/-! ## Tables that a clearing or a port clear leaves -/

theorem KeepsSurroundings.refl (s : State) : KeepsSurroundings s s := by constructor <;> rfl

theorem KeepsSurroundings.follow {s t : State} (h : KeepsSurroundings s t) (before : State) :
    KeepsSurroundings s (State.follow before t) := { h with }

/-- A port clear's work on the Source Table leaves the other blocks alone, whatever the lists name. -/
theorem State.keepsSurroundings_clearTable (s : State) (p : Port) : KeepsSurroundings s (s.clearTable p) := by
  have released : KeepsSurroundings s ((s.claimList p).foldl (State.releaseEntry p) s) :=
    List.foldlRecOn (motive := KeepsSurroundings s) _ (State.releaseEntry p) (.refl s)
      fun t ht e _ => ht.trans (State.keepsSurroundings_releaseEntry p t e)
  have emptied : KeepsSurroundings s (s.releaseClaims p) := { released with }
  have ended : KeepsSurroundings s ((s.releaseClaims p).endLoans p) := by
    unfold State.endLoans
    generalize List.finRange 96 = l
    exact List.foldlRecOn (motive := KeepsSurroundings s) l (State.endLoan p) emptied
      fun t ht i _ => ht.trans (State.keepsSurroundings_endLoan p t i)
  exact ended.follow s

/-- A port clear adds no entry to any claim list. -/
theorem State.claims_clearTable_subset (s : State) (p q : Port) :
    ∀ e ∈ (s.clearTable p).claimList q, e ∈ s.claimList q := by
  have released : (s.releaseClaims p).claims = s.claims.put p [] := by
    refine congrArg (Table.put · p []) ?_
    exact List.foldlRecOn (motive := fun t : State => t.claims = s.claims) _ (State.releaseEntry p) rfl
      fun t ht e _ => (State.claims_releaseEntry t p e).trans ht
  have ended : ((s.releaseClaims p).endLoans p).claims = s.claims.put p [] := by
    unfold State.endLoans
    generalize List.finRange 96 = l
    exact List.foldlRecOn (motive := fun t : State => t.claims = s.claims.put p []) l (State.endLoan p) released
      fun t ht i _ => (State.claims_endLoan t p i).trans ht
  intro e he
  rw [State.clearTable, State.claimList_follow, State.claimList, ended, Table.at_put] at he
  split at he
  · cases he
  · exact he

/-- Part time runs in ACTIVE and WAKING. -/
theorem State.keepsNothing_of_partTimeRuns {s : State} (h : s.partTimeRuns = true) : s.power.keepsNothing = false := by
  unfold State.partTimeRuns at h
  cases hp : s.power <;> simp_all [PowerState.keepsNothing]

/-- A line is sampled in ACTIVE, WATCH and WAKING alone. -/
theorem State.keepsNothing_of_sampled {s : State} {n : LineNo} (h : s.sampled n = true) :
    s.power.keepsNothing = false := by
  unfold State.sampled at h
  cases hp : s.power <;> simp_all [PowerState.keepsNothing]

/-! ## The states that keep nothing -/

namespace State.RestSound

variable {s t : State} (h : s.RestSound)

include h

/-- No hold stands in a power state other than INIT. -/
theorem inHold_of_ne_init (hp : s.power ≠ .init) : s.inHold = false := by
  by_contra hh
  exact hp (h.hold (by simpa using hh))

/-- Where a port clear stands the part is in ACTIVE. -/
theorem active_of_clearing {p : Port} (hc : (s.link p).clearing ≠ .idle) : s.power = .active := by
  by_contra hp
  exact hc (h.noClear hp p)

/-- In ACTIVE, WATCH and WAKING a change of the blocks is free, but for the hold and the port clears. -/
theorem running (hk : s.power.keepsNothing = false) (hp : t.power = s.power) (hh : t.inHold = s.inHold)
    (hl : ∀ p, (s.link p).clearing = .idle → (t.link p).clearing = .idle ∨ s.power = .active) : t.RestSound where
  sources ht := by simp [hp, hk] at ht
  claims ht := by simp [hp, hk] at ht
  timers ht := by simp [hp, hk] at ht
  offers ht := by simp [hp, hk] at ht
  queues ht := by simp [hp, hk] at ht
  partTime ht := by simp [hp, hk] at ht
  lines ht := by simp [hp, hk] at ht
  hold ht := hp.trans (h.hold (hh ▸ ht))
  noClear ht p := (hl p (h.noClear (hp ▸ ht) p)).resolve_right (hp ▸ ht)

/-- A change in ACTIVE that touches neither the hold nor the power state. -/
theorem active (ha : s.power = .active) (hp : t.power = s.power) (hh : t.inHold = s.inHold) : t.RestSound :=
  h.running (by rw [ha]; rfl) hp hh fun _ _ => .inr ha

/-- A change in ACTIVE, WATCH or WAKING that leaves the Link Interfaces alone. -/
theorem running_links (hk : s.power.keepsNothing = false) (hp : t.power = s.power) (hh : t.inHold = s.inHold)
    (hl : t.links = s.links) : t.RestSound :=
  h.running hk hp hh fun p hc => .inl (by rw [State.link, hl]; exact hc)

omit h in
/-- The part enters ACTIVE, WATCH or WAKING without a hold. -/
theorem enter (hs : s.inHold = false) (hk : t.power.keepsNothing = false) (hh : t.inHold = s.inHold)
    (hl : t.power = .active ∨ ∀ p, (t.link p).clearing = .idle) : t.RestSound where
  sources ht := by simp [hk] at ht
  claims ht := by simp [hk] at ht
  timers ht := by simp [hk] at ht
  offers ht := by simp [hk] at ht
  queues ht := by simp [hk] at ht
  partTime ht := by simp [hk] at ht
  lines ht := by simp [hk] at ht
  hold ht := by simp [hh, hs] at ht
  noClear ht := hl.resolve_left ht

theorem setLink {p : Port} {l : Link} (hm : LinkMove s p l) : (s.setLink p l).RestSound where
  sources := h.sources
  claims := h.claims
  timers := h.timers
  offers := h.offers
  queues := h.queues
  partTime := h.partTime
  lines := h.lines
  hold := h.hold
  noClear ha q := by
    rw [State.link_setLink]
    split
    · exact (hm.clearing (h.noClear ha p)).resolve_right ha
    · exact h.noClear ha q

/-- A line that is not sampled changes its pin at most. -/
theorem setLine {n : LineNo} {l : Line} (hl : s.sampled n = true ∨ l = { s.line n with pin := l.pin }) :
    (s.setLine n l).RestSound := by
  rcases hl with hn | hl
  · exact h.running_links (State.keepsNothing_of_sampled hn) rfl rfl rfl
  · refine { h with lines := fun hk m => ?_, hold := h.hold }
    rw [State.line_setLine]
    split
    · rename_i hm
      subst hm
      rw [hl, h.lines hk n]
    · exact h.lines hk m

theorem deliverReached : s.deliverReached.RestSound :=
  { h with timers := fun hk i => by rw [State.timer_deliverReached, h.timers hk]; rfl, hold := h.hold }

theorem stopTimer (i : SourceNo) : (s.stopTimer i).RestSound :=
  { h with
    timers := fun hk j => by rw [State.timer_stopTimer]; split <;> [rfl; exact h.timers hk j]
    hold := h.hold }

/-- A timer stands in ACTIVE, WATCH and WAKING alone. -/
theorem deliver {i : SourceNo} {x : Timer} (hx : s.timer i = some x) (y : Option Timer) :
    (s.setTimer i y).RestSound := by
  refine h.running_links ?_ rfl rfl rfl
  by_contra hk
  simp [h.timers (by simpa using hk) i] at hx

theorem counters {a b : Nat} {c : Time} (hc : c = s.partTime ∨ s.partTimeRuns = true) :
    State.RestSound { s with samplerTime := a, initTime := b, partTime := c } := by
  rcases hc with rfl | hr
  · exact { h with hold := h.hold }
  · exact h.running_links (State.keepsNothing_of_partTimeRuns hr) rfl rfl rfl

theorem enterFailed (hp : s.power = .init) (hh : s.inHold = false) (b : Bool) : (s.enterFailed b).RestSound := by
  have hk : s.power.keepsNothing = true := by rw [hp]; rfl
  exact {
    sources := fun _ => h.sources hk
    claims := fun _ => h.claims hk
    timers := fun _ => h.timers hk
    offers := fun _ => h.offers hk
    queues := fun _ => h.queues hk
    partTime := fun _ => h.partTime hk
    lines := fun _ => h.lines hk
    hold := fun ht => absurd (hh.symm.trans ht) Bool.false_ne_true
    noClear := fun _ => h.noClear (by simp [hp]) }

end State.RestSound

/-- A clearing leaves every block at its reset value. -/
theorem State.restSound_clear (s : State) (t : Settings) {power : PowerState}
    (hp : power = .init ∨ power = .dormant ∧ s.inHold = false) : (s.clear t power).RestSound where
  sources _ i := by simp [State.clear, State.source, Table.at]
  claims _ p := by simp [State.clear, State.claimList, Table.at]
  timers _ i := by simp [State.clear, State.timer, Table.at]
  offers _ p := by simp [State.clear, State.offer, Table.at]
  queues _ p := by simp [State.clear, State.queue, Table.at]
  partTime _ := rfl
  lines _ n := by rw [State.line_clear]; rfl
  hold hh := hp.resolve_right fun hd => Bool.false_ne_true (hd.2.symm.trans hh)
  noClear _ p := by rw [State.link_clear]; rfl

/-- Every operation of the commands keeps the states that keep nothing at their reset values. -/
theorem keptByOperations_restSound : KeptByOperations State.RestSound where
  pending _ _ h := { h with hold := h.hold }
  setLink _ _ _ h hm := h.setLink hm
  setLine _ _ _ h hl := h.setLine hl
  top _ _ h ha := h.active ha rfl rfl
  threshold _ _ _ h ha := h.active ha rfl rfl
  claim _ _ _ h ha _ _ := h.active ha (by simp) (by simp)
  complete _ _ _ _ h ha _ _ := h.active ha (by simp) (by simp)
  lost _ _ _ h ha := h.active ha rfl rfl
  defer _ _ _ _ h ha _ _ := h.active ha (by simp) (by simp)
  post _ _ h ha _ := h.active ha (by simp) (by simp)
  bind _ _ _ h ha _ := h.active ha rfl rfl
  unbind _ _ h ha _ := h.active ha (by simp) (by simp)
  lend _ _ _ _ h ha _ _ := h.active ha (by simp) (by simp)
  recallLoan _ _ h ha := h.active ha (by simp) (by simp)
  returnLoan _ _ _ h ha := h.active ha (by simp) (by simp)
  priority _ _ _ _ h ha _ := h.active ha rfl rfl
  group _ _ _ _ h ha _ := h.active ha rfl rfl
  trigger _ _ _ _ h ha _ _ := h.active ha rfl rfl
  qualify _ _ _ _ h ha _ _ := h.active ha (by simp [State.writeQualify]) (by simp [State.writeQualify])
  waitLimit _ _ _ _ h ha _ := h.active ha rfl rfl
  serviceLimit _ _ _ _ h ha _ := h.active ha rfl rfl
  fallback _ _ _ _ h ha _ := h.active ha rfl rfl
  posters _ _ _ _ h ha _ _ := h.active ha rfl rfl
  enable _ _ _ h ha _ := h.active ha (by simp) (by simp)
  disable _ _ _ h ha _ := h.active ha (by simp) (by simp)
  readIncident _ _ _ _ h ha _ := h.active ha rfl rfl
  emptyQueue _ _ h ha := h.active ha rfl rfl
  clearOffers _ p h hc := h.active (h.active_of_clearing (p := p) (by simp [hc])) rfl rfl
  clearTable s p h hc := h.active (h.active_of_clearing (p := p) (by simp [hc]))
    (s.keepsSurroundings_clearTable p).power (by simp [State.inHold, (s.keepsSurroundings_clearTable p).hold])
  settings _ _ h ha _ := h.active ha rfl rfl
  watch s h ha _ hc := .enter (h.inHold_of_ne_init (by simp [ha])) rfl rfl
    (.inr fun p => by_contra fun hp => by simp [(State.anyClearing_iff s).2 ⟨p, hp⟩] at hc)
  startWaking _ h hw := .enter (h.inHold_of_ne_init (by simp [hw])) rfl rfl (.inr (h.noClear (by simp [hw])))
  wakingEnd _ h hw := .enter (h.inHold_of_ne_init (by simp [hw])) rfl rfl (.inl rfl)
  clear s t _ _ _ hp := s.restSound_clear t hp
  pins _ _ _ h := { h with hold := h.hold }
  hold _ _ h hp := { h with hold := fun _ => hp }
  takeChange _ _ _ _ h hn := h.running_links (State.keepsNothing_of_sampled hn) (by simp) (by simp) (by simp)
  wakeReports _ _ h := { h with hold := h.hold }
  deliver _ _ _ h hx := h.deliver hx _
  deliverReached _ h := h.deliverReached
  stopTimer _ i h := h.stopTimer i
  escalate _ _ _ h hr _ := h.running_links (State.keepsNothing_of_partTimeRuns hr) (by simp) (by simp) (by simp)
  retract _ _ _ _ h hr _ := h.running_links (State.keepsNothing_of_partTimeRuns hr) (by simp) (by simp) (by simp)
  enterActive _ _ _ hh := .enter hh rfl rfl (.inl rfl)
  enterFailed _ b h hp hh := h.enterFailed hp hh b
  counters _ _ _ _ h hc := h.counters hc

/-! ## WATCH and WAKING -/

namespace State.NoClaimAtRest

variable {s t : State}

/-- ACTIVE and the states that keep nothing are not at rest. -/
theorem of_power (hw : t.power ≠ .watch) (hk : t.power ≠ .waking) : t.NoClaimAtRest :=
  fun ht => absurd ht (by simp [hw, hk])

/-- A change in ACTIVE that keeps the power state. -/
theorem active (ha : s.power = .active) (hp : t.power = s.power) : t.NoClaimAtRest :=
  of_power (by simp [hp, ha]) (by simp [hp, ha])

/-- A change that keeps the power state and adds no HELD entry. -/
theorem of_lists (h : s.NoClaimAtRest) (hp : t.power = s.power)
    (hl : ∀ p, ∀ e ∈ t.claimList p, e.status = .held → e ∈ s.claimList p) : t.NoClaimAtRest :=
  fun ht p e he hh => h (hp ▸ ht) p e (hl p e he hh) hh

/-- A change that keeps the power state and the claim lists. -/
theorem of_eq (h : s.NoClaimAtRest) (hp : t.power = s.power) (hc : t.claims = s.claims) : t.NoClaimAtRest :=
  h.of_lists hp fun p e he _ => by rwa [State.claimList, hc] at he

/-- A lost claim becomes RETRACTED, which adds no HELD entry. -/
theorem retract (h : s.NoClaimAtRest) (p : Port) (i : SourceNo) (time : Time) : (s.retract p i time).NoClaimAtRest := by
  have hc : (s.retract p i time).claims = (s.markLost p i).claims := by
    unfold State.retract
    dsimp only
    rw [State.claims_follow]
    split <;> simp
  refine State.NoClaimAtRest.of_eq (s := s.markLost p i) (h.of_lists rfl fun q e he hh => ?_) (by simp) hc
  rw [State.markLost, State.claimList_setClaimList] at he
  split at he
  · rename_i hq
    subst hq
    obtain ⟨x, hx, rfl⟩ := List.mem_map.1 he
    split at hh
    · cases hh
    · rename_i hn
      rwa [if_neg hn]
  · exact he

end State.NoClaimAtRest

/-- Every operation of the commands keeps WATCH and WAKING without a HELD entry. -/
theorem keptByOperations_noClaimAtRest : KeptByOperations State.NoClaimAtRest where
  pending _ _ h := h
  setLink _ _ _ h _ := h
  setLine _ _ _ h _ := h
  top _ _ h _ := h
  threshold _ _ _ h _ := h
  claim _ _ _ _ ha _ _ := .active ha (by simp)
  complete _ _ _ _ _ ha _ _ := .active ha (by simp)
  lost _ _ _ _ ha := .active ha rfl
  defer _ _ _ _ _ ha _ _ := .active ha (by simp)
  post _ _ _ ha _ := .active ha (by simp)
  bind _ _ _ h _ _ := h
  unbind _ _ _ ha _ := .active ha (by simp)
  lend _ _ _ _ h _ _ _ := h
  recallLoan _ _ h _ := h
  returnLoan _ _ _ _ ha := .active ha (by simp)
  priority _ _ _ _ h _ _ := h
  group _ _ _ _ h _ _ := h
  trigger _ _ _ _ h _ _ _ := h
  qualify _ _ _ _ _ ha _ _ := .active ha (by simp [State.writeQualify])
  waitLimit _ _ _ _ h _ _ := h
  serviceLimit _ _ _ _ h _ _ := h
  fallback _ _ _ _ h _ _ := h
  posters _ _ _ _ h _ _ _ := h
  enable _ _ _ _ ha _ := .active ha (by simp)
  disable _ _ _ _ ha _ := .active ha (by simp)
  readIncident _ _ _ _ h _ _ := h
  emptyQueue _ _ h _ := h
  clearOffers _ _ h _ := h
  clearTable s p h _ := h.of_lists (s.keepsSurroundings_clearTable p).power
    fun q e he _ => s.claims_clearTable_subset p q e he
  settings _ _ h _ _ := h
  watch s _ _ hn _ _ q e he hh := by simp [(State.anyHeld_iff s).2 ⟨q, e, he, hh⟩] at hn
  startWaking _ h hw _ := h (.inl hw)
  wakingEnd _ _ _ := .of_power (by simp) (by simp)
  clear _ _ _ _ _ hp := by
    rcases hp with rfl | ⟨rfl, -⟩ <;> exact .of_power (by simp [State.clear]) (by simp [State.clear])
  pins _ _ _ h := h
  hold _ _ h _ := h
  takeChange _ _ _ _ h _ := h.of_eq (by simp) (by simp)
  wakeReports _ _ h := h
  deliver _ _ _ h _ := h
  deliverReached _ h := h
  stopTimer _ _ h := h
  escalate _ _ _ h _ _ := h.of_eq (by simp) (by simp)
  retract _ p i time h _ _ := h.retract p i time
  enterActive _ _ _ _ := .of_power (by simp [State.enterActive]) (by simp [State.enterActive])
  enterFailed _ _ _ _ _ := .of_power (by simp [State.enterFailed]) (by simp [State.enterFailed])
  counters _ _ _ _ h _ := h

/-- Settles O59: both claims are kept by every step, since every operation of the commands keeps them. -/
theorem stepKeepsTheRestStates : Obligations.StepKeepsTheRestStates :=
  fun _ _ hs => ⟨fun h => keptByOperations_restSound.step h hs, fun h => keptByOperations_noClaimAtRest.step h hs⟩

end Sys2Proof.Machine

/-! PROOF. CONFIGURE, ENABLE and DISABLE (O25 to O30). -/

namespace Sys2Proof.Machine

/-! ## Argument values (R10) -/

theorem boundedArg_of {n : Nat} {v : Half} {k : Fin n} (h : v.toNat = k.val) : boundedArg n v = some k := by
  simp [boundedArg, h]

theorem boundedArg_out {n : Nat} {v : Half} (h : n ≤ v.toNat) : boundedArg n v = none := by
  simp [boundedArg, h]

theorem triggerArg_of {v : Half} {k : Trigger} (h : v.toNat = k.byte.toNat) : triggerArg v = some k := by
  cases k <;> simp [triggerArg, h, Trigger.byte]

theorem triggerArg_out {v : Half} (h : 5 ≤ v.toNat) : triggerArg v = none := by
  unfold triggerArg
  split <;> [omega; omega; omega; omega; omega; rfl]

theorem triggerArg_in {v : Half} (h : v.toNat < 5) : ∃ k, triggerArg v = some k := by
  unfold triggerArg
  generalize v.toNat = m at h
  interval_cases m <;> exact ⟨_, rfl⟩

theorem fallbackArg_of {v : Half} {f : Option Port} (h : f = none ∧ v.toNat = 4 ∨ ∃ q, f = some q ∧ v.toNat = q.val) :
    fallbackArg v = some f := by
  rcases h with ⟨rfl, hv⟩ | ⟨q, rfl, hv⟩
  · simp [fallbackArg, hv]
  · simp [fallbackArg, hv]

theorem fallbackArg_out {v : Half} (h : 5 ≤ v.toNat) : fallbackArg v = none := by
  rw [fallbackArg, dif_neg (by omega), if_neg (by omega)]

theorem fallbackArg_in {v : Half} (h : v.toNat < 5) : ∃ f, fallbackArg v = some f := by
  unfold fallbackArg
  split
  · exact ⟨_, rfl⟩
  · exact ⟨none, if_pos (by omega)⟩

theorem portSetArg_of {v : Half} (h : v.toNat < 16) : portSetArg v = some (v.setWidth 4) := if_pos h

theorem portSetArg_out {v : Half} (h : 16 ≤ v.toNat) : portSetArg v = none := if_neg (by omega)

theorem isPosted_iff (i : SourceNo) : isPosted i = true ↔ 64 ≤ i.val := by simp [isPosted]

theorem wiredOnly_of {α : Type} {i : SourceNo} (h : i.val < 64) (v : Option α) : wiredOnly v i = v :=
  if_neg (by rw [isPosted_iff]; omega)

theorem wiredOnly_posted {α : Type} {i : SourceNo} (h : 64 ≤ i.val) (v : Option α) : wiredOnly v i = none :=
  if_pos ((isPosted_iff i).2 h)

theorem wiredOnly_none {α : Type} (i : SourceNo) : wiredOnly (none : Option α) i = none := ite_self _

theorem postedOnly_of {α : Type} {i : SourceNo} (h : 64 ≤ i.val) (v : Option α) : postedOnly v i = v :=
  if_pos ((isPosted_iff i).2 h)

theorem postedOnly_wired {α : Type} {i : SourceNo} (h : i.val < 64) (v : Option α) : postedOnly v i = none :=
  if_neg (by rw [isPosted_iff]; omega)

theorem postedOnly_none {α : Type} (i : SourceNo) : postedOnly (none : Option α) i = none := ite_self _

/-! ## A command on a source, taken in ACTIVE -/

section

variable {p : Port} {b : Byte} {i : SourceNo} {s : State} {c : Instr} {code : HostCode} {take : SourceNo → Taking}

theorem State.ownerTakes_onSource (hr : Ready s p c) (hi : b.toNat = i.val) :
    s.ownerTakes p code c (onSource b take) = (take i s).1.answer p (some ((take i s).2.answer code)) true := by
  rw [State.ownerTakes_of_ready hr, onSource_of hi]

/-- A source byte from 96 on (R9). -/
theorem State.ownerTakes_onSource_out (hr : Ready s p c) (hb : 96 ≤ b.toNat) :
    s.ownerTakes p code c (onSource b take) = refusedWith s p code .badArgument := by
  rw [State.ownerTakes_of_ready hr, onSource_out hb]
  rfl

/-- A taking that refuses changes nothing but the answer. -/
theorem State.ownerTakes_onSource_refuse (hr : Ready s p c) (hi : b.toNat = i.val) {r : Result}
    (ht : take i s = (s, refuse r)) : s.ownerTakes p code c (onSource b take) = refusedWith s p code r := by
  rw [State.ownerTakes_onSource hr hi, ht]
  rfl

end

/-! ## The checks of CONFIGURE (R9, R10, R11) -/

section

variable {α : Type} {p : Port} {b field : Byte} {value : Half} {value? : SourceNo → Option α} {busy : SourceRec → Bool}
  {write : State → SourceNo → α → State} {i : SourceNo} {s : State}

theorem takeConfigure_badArgument (hv : value? i = none) :
    takeConfigure p field value value? busy write i s = (s, refuse .badArgument) := by
  simp only [takeConfigure, hv]

theorem takeConfigure_denied {v : α} (hv : value? i = some v) (hb : (s.source i).binder ≠ some p) :
    takeConfigure p field value value? busy write i s = (s, refuse .denied) := by
  simp only [takeConfigure, hv, if_neg hb]

theorem takeConfigure_busy {v : α} (hv : value? i = some v) (hb : (s.source i).binder = some p)
    (hy : busy (s.source i) = true) : takeConfigure p field value value? busy write i s = (s, refuse .busy) := by
  simp only [takeConfigure, hv, if_pos hb, if_pos hy]

theorem takeConfigure_accepted {v : α} (hv : value? i = some v) (hb : (s.source i).binder = some p)
    (hy : busy (s.source i) = false) :
    takeConfigure p field value value? busy write i s = (write s i v, okWith (configurePayload i field value)) := by
  simp only [takeConfigure, hv, if_pos hb, hy, Bool.false_eq_true, if_false]

/-- A CONFIGURE that passes its checks writes the field and answers source, field and value. -/
theorem State.ownerTakes_configure {c : Instr} (hr : Ready s p c) (hi : b.toNat = i.val) {v : α}
    (hv : value? i = some v) (hb : (s.source i).binder = some p) (hy : busy (s.source i) = false) :
    s.ownerTakes p .configure c (onSource b (takeConfigure p field value value? busy write)) =
      (write s i v).answer p (some ⟨HostCode.configure.byte, .ok, b :: field :: halfBytes value⟩) true := by
  rw [State.ownerTakes_onSource hr hi, takeConfigure_accepted hv hb hy]
  simp only [Reply.answer, okWith, configurePayload, byteOf_source hi]

end

/-! ## CONFIGURE of one field -/

/-- Settles O25: each row is a CONFIGURE that passes its checks. -/
theorem configureWritesOneField : Obligations.ConfigureWritesOneField := by
  intro p b v i s hi hb
  refine ⟨fun g hr hv => ?_, fun hr => ?_, fun hr => ?_, fun hr hp hv => ?_, fun k hr hw hv he hc => ?_⟩ <;>
    refine congrArg Host.Outcome.next ?_
  · exact State.ownerTakes_configure hr hi (boundedArg_of hv) hb rfl
  · exact State.ownerTakes_configure hr hi rfl hb rfl
  · exact State.ownerTakes_configure hr hi rfl hb rfl
  · refine State.ownerTakes_configure hr hi ?_ hb rfl
    rw [postedOnly_of hp, portSetArg_of hv]
    exact congrArg some (BitVec.eq_of_toNat_eq (by simp))
  · refine State.ownerTakes_configure hr hi ((wiredOnly_of hw _).trans (triggerArg_of hv)) hb ?_
    have : (s.source i).state.claimant = none := by
      cases hs : (s.source i).state with
      | claimed q => exact absurd ⟨q, hs⟩ hc
      | _ => rfl
    simp [he, this]

/-! ## CONFIGURE followed by the Offer Unit -/

theorem KeepsOtherSources.setSource (s : State) (i : SourceNo) (r : SourceRec) :
    KeepsOtherSources i s (s.setSource i r) := fun j hj => by simp [Ne.symm hj]

/-- A happening that changed one source's records, timer and queues, followed and answered. -/
theorem ChangesOneSource.of_follow {s t : State} {i : SourceNo} (h : KeepsSurroundings s t)
    (hs : KeepsOtherSources i s t) (hl : t.links = s.links) (ho : t.offers = s.offers) (p : Port) (a : Answer) :
    ChangesOneSource p i s ((State.follow s t).answer p (some a) true) where
  surroundings := (h.follow s).answer _ _ _
  otherSources j hj := by
    simpa only [State.source_answer, State.source_follow, State.timer_answer, State.timer_follow] using hs j hj
  otherLinks q hq := (State.keepsOtherLinks_answer (State.follow s t) p _ _ q hq).trans (congrArg (Table.at · q) hl)
  offers := (State.offersFollow_follow ho).of_eq rfl rfl rfl

/-- Settles O26: the written field is followed at once, and the lists, timers and queues are not touched. -/
theorem configurePriorityAndFallbackFollow : Obligations.ConfigurePriorityAndFallbackFollow := by
  intro p b v i s hi hb
  refine ⟨fun n hr hv => ⟨_, congrArg Host.Outcome.next
      (State.ownerTakes_configure hr hi (boundedArg_of hv) hb rfl), ?_⟩,
    fun f hr hv => ⟨_, congrArg Host.Outcome.next
      (State.ownerTakes_configure hr hi (fallbackArg_of hv) hb rfl), ?_⟩⟩
  · have hs := KeepsOtherSources.setSource s i { s.source i with priority := n }
    exact ⟨.of_follow (by constructor <;> rfl) hs rfl rfl p _, State.source_setSource_same _ _ _, rfl, rfl, rfl,
      (State.answered_answer rfl rfl p .configure .ok _).1⟩
  · have hs := KeepsOtherSources.setSource s i { s.source i with fallback := f }
    exact ⟨.of_follow (by constructor <;> rfl) hs rfl rfl p _, State.source_setSource_same _ _ _, rfl, rfl, rfl,
      (State.answered_answer rfl rfl p .configure .ok _).1⟩

/-! ## CONFIGURE QUALIFY and the span -/

theorem lineOf_sourceOf (n : LineNo) : lineOf (sourceOf n) = some n := by simp [lineOf, sourceOf]

theorem State.setLine_line (s : State) (n : LineNo) : s.setLine n (s.line n) = s := by simp [State.setLine, State.line]

theorem Line.requalify_of_no_span {l : Line} (h : l.span = none) (now qualify : Nat) : l.requalify now qualify = l := by
  simp [Line.requalify, Line.spanReached, h]

/-- A span that has not lasted the qualify time goes on. -/
theorem Line.requalify_of_short {l : Line} {start now qualify : Nat} (h : l.span = some start)
    (hq : now - start < qualify) : l.requalify now qualify = l := by
  simp only [Line.requalify, Line.spanReached, h, decide_eq_true_eq]
  exact if_neg (by omega)

/-- A span that has lasted the qualify time ends at the raw level. -/
theorem Line.requalify_of_reached {l : Line} {start now qualify : Nat} (h : l.span = some start)
    (hq : qualify ≤ now - start) :
    l.requalify now qualify = { l with qualified := l.raw, span := none, reports := [] } := by
  simp only [Line.requalify, Line.spanReached, h, decide_eq_true_eq]
  exact if_pos hq

/-- A new QUALIFY reaches no more than the record and its line. -/
theorem State.writeQualify_eq (s : State) (n : LineNo) (k : Fin 16) :
    s.writeQualify (sourceOf n) k =
      (s.setSource (sourceOf n) { s.source (sourceOf n) with qualify := k }).setLine n
        (if k = (s.source (sourceOf n)).qualify then s.line n else (s.line n).requalify s.samplerTime k.val) := by
  unfold State.writeQualify State.requalifyLine
  simp only [lineOf_sourceOf, State.source_setSource_same, State.line_setSource, State.samplerTime_setSource]
  split
  · exact (State.setLine_line _ _).symm
  · rfl

/-- Settles O27: what the line becomes is read off the span. -/
theorem configureQualifyGovernsTheSpan : Obligations.ConfigureQualifyGovernsTheSpan := by
  intro p b v n k s hi hv hr hb he
  have hk : wiredOnly (boundedArg 16 v) (sourceOf n) = some k := (wiredOnly_of n.isLt _).trans (boundedArg_of hv)
  have hx := State.ownerTakes_configure (field := 4#8) (value := v) (write := State.writeQualify) hr hi hk hb he
  rw [State.writeQualify_eq] at hx
  refine ⟨_, congrArg Host.Outcome.next hx, ?_⟩
  simp only [State.line_answer, State.line_setLine_same]
  refine ⟨rfl, fun h => if_pos h, fun h => ?_⟩
  simp only [if_neg h]
  refine ⟨fun hn => Line.requalify_of_no_span hn _ _, fun start hs => ⟨Line.requalify_of_short hs, fun hq => ?_⟩⟩
  rw [Line.requalify_of_reached hs hq]

/-! ## CONFIGURE refused -/

/-- Settles O28: each row stops at its first check that fails. -/
theorem configureRefusalsInOrder : Obligations.ConfigureRefusalsInOrder := by
  intro p b v i c s hr
  refine ⟨fun hb hc => ?_, fun hi => ⟨fun hc => ?_, fun hb hc => ?_, fun hb hw hc => ?_⟩⟩
  · rcases hc with rfl | rfl | rfl | rfl | rfl | rfl | rfl | rfl <;>
      exact congrArg Host.Outcome.next (State.ownerTakes_onSource_out hr hb)
  · rcases hc with ⟨rfl, hv⟩ | ⟨rfl, hv⟩ | ⟨rfl, hv⟩ | ⟨rfl, hv⟩ | ⟨rfl, hv⟩ | ⟨rfl, hv⟩ <;>
      refine congrArg Host.Outcome.next (State.ownerTakes_onSource_refuse hr hi (takeConfigure_badArgument ?_))
    · exact boundedArg_out hv
    · exact boundedArg_out hv
    · rcases hv with hp | hv
      · exact wiredOnly_posted hp _
      · rw [triggerArg_out hv, wiredOnly_none]
    · rcases hv with hp | hv
      · exact wiredOnly_posted hp _
      · rw [boundedArg_out hv, wiredOnly_none]
    · exact fallbackArg_out hv
    · rcases hv with hw | hv
      · exact postedOnly_wired hw _
      · rw [portSetArg_out hv, postedOnly_none]
  · rcases hc with ⟨rfl, hv⟩ | ⟨rfl, hv⟩ | ⟨rfl, hw, hv⟩ | ⟨rfl, hw, hv⟩ | rfl | rfl | ⟨rfl, hv⟩ | ⟨rfl, hp, hv⟩ <;>
      refine congrArg Host.Outcome.next (State.ownerTakes_onSource_refuse hr hi ?_)
    · exact takeConfigure_denied (boundedArg_of (k := ⟨_, hv⟩) rfl) hb
    · exact takeConfigure_denied (boundedArg_of (k := ⟨_, hv⟩) rfl) hb
    · obtain ⟨k, hk⟩ := triggerArg_in hv
      exact takeConfigure_denied ((wiredOnly_of hw _).trans hk) hb
    · exact takeConfigure_denied ((wiredOnly_of hw _).trans (boundedArg_of (k := ⟨_, hv⟩) rfl)) hb
    · exact takeConfigure_denied rfl hb
    · exact takeConfigure_denied rfl hb
    · obtain ⟨f, hf⟩ := fallbackArg_in hv
      exact takeConfigure_denied hf hb
    · exact takeConfigure_denied ((postedOnly_of hp _).trans (portSetArg_of hv)) hb
  · rcases hc with ⟨rfl, hv, hs⟩ | ⟨rfl, hv, he⟩ <;>
      refine congrArg Host.Outcome.next (State.ownerTakes_onSource_refuse hr hi ?_)
    · obtain ⟨k, hk⟩ := triggerArg_in hv
      refine takeConfigure_busy ((wiredOnly_of hw _).trans hk) hb ?_
      rcases hs with he | ⟨q, hq⟩
      · simp [he]
      · simp [hq, SrcState.claimant]
    · exact takeConfigure_busy ((wiredOnly_of hw _).trans (boundedArg_of (k := ⟨_, hv⟩) rfl)) hb he

/-! ## ENABLE -/

/-- A level source whose line's qualified level is its trigger's, written out (R51). -/
theorem State.lineActive_iff (s : State) (i : SourceNo) :
    s.lineActive i = true ↔ ∃ n, lineOf i = some n ∧
      ((s.source i).trigger = .high ∧ (s.line n).qualified = true ∨
        (s.source i).trigger = .low ∧ (s.line n).qualified = false) := by
  unfold State.lineActive
  cases lineOf i with
  | none => simp
  | some n => cases ht : (s.source i).trigger <;> simp

theorem State.enableSource_of_enabled {s : State} {i : SourceNo} (h : (s.source i).enabled = true) :
    s.enableSource i = s := if_pos h

/-- Enabling a source moves neither its line nor its trigger. -/
theorem State.lineActive_enabled (s : State) (i : SourceNo) :
    (s.setSource i { s.source i with enabled := true }).lineActive i = s.lineActive i := by
  unfold State.lineActive
  rw [State.source_setSource_same]
  rfl

/-- A QUIET source with an active line takes one event as it is enabled (R18). -/
theorem State.enableSource_of_active {s : State} {i : SourceNo} (he : (s.source i).enabled = false)
    (h : (s.source i).state = .quiet ∧ s.lineActive i = true) :
    s.enableSource i = State.follow s ((s.setSource i { s.source i with enabled := true }).takeEvent i) := by
  unfold State.enableSource
  dsimp only
  rw [if_neg (by simp [he]), State.lineActive_enabled, if_pos h]

/-- Any other disabled source is enabled alone. -/
theorem State.enableSource_of_inactive {s : State} {i : SourceNo} (he : (s.source i).enabled = false)
    (h : ¬((s.source i).state = .quiet ∧ s.lineActive i = true)) :
    s.enableSource i = State.follow s (s.setSource i { s.source i with enabled := true }) := by
  unfold State.enableSource
  dsimp only
  rw [if_neg (by simp [he]), State.lineActive_enabled, if_neg h]

theorem enabledPayload_eq {b : Byte} {i : SourceNo} (hi : b.toNat = i.val) (s : State) :
    enabledPayload s i =
      [b, if (s.source i).enabled then 1#8 else 0#8, (s.source i).state.byte, byteOf (s.source i).count] := by
  rw [enabledPayload, byteOf_source hi]

/-- ENABLE from the binder. -/
theorem exec_enable_of_binder {p : Port} {b : Byte} {i : SourceNo} {s t : State} (hr : Ready s p (.enable p b))
    (hi : b.toNat = i.val) (hb : (s.source i).binder = some p) (ht : s.enableSource i = t)
    (he : (t.source i).enabled = true) :
    exec (.enable p b) s = .next (t.answer p
      (some ⟨HostCode.enable.byte, .ok, [b, 1#8, (t.source i).state.byte, byteOf (t.source i).count]⟩) true) := by
  refine congrArg Host.Outcome.next ?_
  rw [State.ownerTakes_onSource hr hi, takeEnable, if_pos hb, ht, enabledPayload_eq hi, if_pos he]
  rfl

/-- Settles O29: an enabled source stays, a disabled one is enabled, and the event is taken before the offers follow. -/
theorem enableMayTakeOneEvent : Obligations.EnableMayTakeOneEvent := by
  intro p b s hr
  refine ⟨fun hb => congrArg Host.Outcome.next (State.ownerTakes_onSource_out hr hb), fun i hi =>
    ⟨fun hb => congrArg Host.Outcome.next (State.ownerTakes_onSource_refuse hr hi (if_neg hb)),
      fun hb he => exec_enable_of_binder hr hi hb (State.enableSource_of_enabled he) he, fun hb he => ?_⟩⟩
  have active := State.lineActive_iff s i
  have hs := KeepsOtherSources.setSource s i { s.source i with enabled := true }
  by_cases hc : (s.source i).state = .quiet ∧ s.lineActive i = true
  · obtain ⟨taken, others⟩ := State.eventTaken_takeEvent (s.setSource i { s.source i with enabled := true }) i
    obtain ⟨record, timer, queues⟩ := taken.quiet (by simpa using hc.1)
    rw [State.source_setSource_same] at record timer
    have hx := exec_enable_of_binder hr hi hb (State.enableSource_of_active he hc)
      (by rw [State.source_follow, record])
    refine ⟨_, hx, .of_follow (by constructor <;> simp) (fun j hj => ?_) (by simp) (by simp) p _, by simp, ?_, ?_,
      (State.answered_answer (by simp) (by simp) p .enable .ok _).1⟩
    · exact ⟨(others j hj).1.trans (hs j hj).1, (others j hj).2.trans (hs j hj).2⟩
    · exact queues
    · rw [if_pos ⟨hc.1, active.1 hc.2⟩]
      exact ⟨record, timer⟩
  · have hx := exec_enable_of_binder hr hi hb (State.enableSource_of_inactive he hc) (by simp)
    refine ⟨_, hx, .of_follow (by constructor <;> rfl) hs rfl rfl p _, rfl, rfl, ?_,
      (State.answered_answer rfl rfl p .enable .ok _).1⟩
    rw [if_neg fun h => hc ⟨h.1, active.2 h.2⟩]
    exact ⟨State.source_setSource_same _ _ _, rfl⟩

/-! ## DISABLE -/

section

variable {s : State} {i : SourceNo}

theorem State.disableSource_of_disabled (he : (s.source i).enabled = false) : s.disableSource i = s :=
  if_neg (by simp [he])

theorem State.disableSource_of_quiet (he : (s.source i).enabled = true) (hs : (s.source i).state = .quiet) :
    s.disableSource i = s.setSource i { s.source i with enabled := false, count := 0 } := by
  simp only [State.disableSource, he, hs, if_true]

theorem State.disableSource_of_claimed {q : Port} (he : (s.source i).enabled = true)
    (hs : (s.source i).state = .claimed q) :
    s.disableSource i = s.setSource i { s.source i with enabled := false } := by
  simp only [State.disableSource, he, hs, if_true]

/-- The part before the Offer Unit follows a withdrawal (R21). -/
def State.withdrawn (s : State) (i : SourceNo) : State :=
  ((s.setSource i { s.source i with enabled := false, state := .quiet, count := 0 }).stopTimer i).writeIncident
    .withdrawn i none (byteOf (s.source i).count) s.partTime

theorem State.disableSource_of_waiting (he : (s.source i).enabled = true)
    (hs : (s.source i).state = .pending ∨ (s.source i).state = .escalated) :
    s.disableSource i = State.follow s (s.withdrawn i) := by
  rcases hs with hs | hs <;> simp only [State.disableSource, he, hs, if_true] <;> rfl

theorem State.source_withdrawn (s : State) (i j : SourceNo) :
    (s.withdrawn i).source j =
      if i = j then { s.source i with enabled := false, state := .quiet, count := 0 } else s.source j := by
  simp [State.withdrawn]

theorem State.timer_withdrawn (s : State) (i j : SourceNo) :
    (s.withdrawn i).timer j = if i = j then none else s.timer j := by
  simp [State.withdrawn]

theorem State.keepsSurroundings_withdrawn (s : State) (i : SourceNo) : KeepsSurroundings s (s.withdrawn i) := by
  constructor <;> simp [State.withdrawn]

theorem State.keepsOtherSources_withdrawn (s : State) (i : SourceNo) : KeepsOtherSources i s (s.withdrawn i) :=
  fun j hj => by simp [State.source_withdrawn, State.timer_withdrawn, Ne.symm hj]

theorem State.links_withdrawn (s : State) (i : SourceNo) : (s.withdrawn i).links = s.links := by
  simp [State.withdrawn]

theorem State.offers_withdrawn (s : State) (i : SourceNo) : (s.withdrawn i).offers = s.offers := by
  simp [State.withdrawn]

theorem State.claims_withdrawn (s : State) (i : SourceNo) : (s.withdrawn i).claims = s.claims := by
  simp [State.withdrawn]

/-- The binder, whom a withdrawal leaves in place, gets the incident. -/
theorem State.queue_withdrawn {p : Port} (hb : (s.source i).binder = some p) (q : Port) :
    (s.withdrawn i).queue q =
      if q = p then (s.queue q).push ⟨.withdrawn, i, none, byteOf (s.source i).count, s.partTime⟩ else s.queue q := by
  simp [State.withdrawn, State.queue_writeIncident, hb, eq_comm]

end

/-- DISABLE from the binder. -/
theorem exec_disable_of_binder {p : Port} {b : Byte} {i : SourceNo} {s t : State} (hr : Ready s p (.disable p b))
    (hi : b.toNat = i.val) (hb : (s.source i).binder = some p) (ht : s.disableSource i = t) {r : SourceRec}
    (hs : t.source i = r) (he : r.enabled = false) :
    exec (.disable p b) s = .next (t.answer p
      (some ⟨HostCode.disable.byte, .ok, [b, 0#8, r.state.byte, byteOf r.count]⟩) true) := by
  refine congrArg Host.Outcome.next ?_
  rw [State.ownerTakes_onSource hr hi, takeDisable, if_pos hb, ht, enabledPayload_eq hi, hs, he]
  rfl

/-- Settles O30: by the state of the enabled source; only a withdrawal touches more than the record. -/
theorem disableByState : Obligations.DisableByState := by
  intro p b s hr
  refine ⟨fun hb => congrArg Host.Outcome.next (State.ownerTakes_onSource_out hr hb), fun i hi =>
    ⟨fun hb => congrArg Host.Outcome.next (State.ownerTakes_onSource_refuse hr hi (if_neg hb)),
      fun hb he => exec_disable_of_binder hr hi hb (State.disableSource_of_disabled he) rfl he,
      fun hb he => ⟨fun hs => ?_, fun q hs => ?_, fun hs => ?_⟩⟩⟩
  · have hx := exec_disable_of_binder hr hi hb (State.disableSource_of_quiet he hs)
      (State.source_setSource_same _ _ _) rfl
    rw [hs] at hx
    exact hx
  · have hx := exec_disable_of_binder hr hi hb (State.disableSource_of_claimed he hs)
      (State.source_setSource_same _ _ _) rfl
    rw [hs] at hx
    exact hx
  · have hw := (State.source_withdrawn s i i).trans (if_pos rfl)
    have ht := (State.timer_withdrawn s i i).trans (if_pos rfl)
    exact ⟨_, exec_disable_of_binder hr hi hb (State.disableSource_of_waiting he hs) hw rfl,
      .of_follow (s.keepsSurroundings_withdrawn i) (s.keepsOtherSources_withdrawn i) (s.links_withdrawn i)
        (s.offers_withdrawn i) p _,
      s.claims_withdrawn i, hw, ht, State.queue_withdrawn hb,
      (State.answered_answer (s.links_withdrawn i) (s.keepsSurroundings_withdrawn i).power p .disable .ok _).1⟩

end Sys2Proof.Machine

/-! PROOF. BIND, UNBIND, LEND, RECALL and RETURN (O22 to O24). Each passes its checks and answers the record it leaves;
UNBIND alone reaches a line, where a qualify time of 0 ends any span. -/

namespace Sys2Proof.Machine

/-! ## The binding answer (R28) -/

/-- A binding command on source `i` that passes its checks and leaves the part at `t` answers what `t` holds of `i`. -/
theorem State.ownerTakes_bound {p : Port} {b : Byte} {i : SourceNo} {s t : State} {c : Instr} {code : HostCode}
    {take : SourceNo → Taking} (hr : Ready s p c) (hi : b.toNat = i.val) (ht : take i s = boundAnswer t i)
    {r : SourceRec} (hs : t.source i = r) :
    s.ownerTakes p code c (onSource b take) = t.answer p
      (some ⟨code.byte, .ok,
        [b, portByte r.binder, portByte r.borrower, r.state.byte, portByte r.state.claimant]⟩) true := by
  rw [State.ownerTakes_onSource hr hi, ht]
  simp only [boundAnswer, bindingPayload, Reply.answer, okWith, byteOf_source hi, hs]

/-- A change of one source stays one when it is answered. -/
theorem ChangesOneSource.answer {p : Port} {i : SourceNo} {s t : State} (h : ChangesOneSource p i s t) (a : Answer) :
    ChangesOneSource p i s (t.answer p (some a) true) where
  surroundings := h.surroundings.answer _ _ _
  otherSources j hj := by simpa only [State.source_answer, State.timer_answer] using h.otherSources j hj
  otherLinks q hq := (State.keepsOtherLinks_answer t p _ _ q hq).trans (h.otherLinks q hq)
  offers := State.offersFollow_answer h.offers _ _ _

/-! ## BIND -/

theorem PortSet.only_eq (p : Port) : PortSet.only p = BitVec.ofNat 4 (2 ^ p.val) := by
  revert p
  decide

theorem State.bindSource_eq (s : State) (p : Port) (i : SourceNo) :
    s.bindSource p i = s.setSource i { s.source i with
      binder := some p
      posters := if 64 ≤ i.val then BitVec.ofNat 4 (2 ^ p.val) else (s.source i).posters } := by
  simp only [State.bindSource, PortSet.only_eq, isPosted_iff]

theorem takeBind_of_unbound {p : Port} {i : SourceNo} {s : State} (hb : (s.source i).binder = none) :
    takeBind p i s = boundAnswer (s.bindSource p i) i := by
  simp only [takeBind, hb]

theorem takeBind_of_binder {p : Port} {i : SourceNo} {s : State} (hb : (s.source i).binder = some p) :
    takeBind p i s = boundAnswer s i := by
  simp only [takeBind, hb, if_true]

/-- Settles O22: an unbound source's record is written, the binder's own source stays. -/
theorem bindBindsAnUnboundSource : Obligations.BindBindsAnUnboundSource := by
  intro p b i s hr hi
  refine ⟨fun hb => congrArg Host.Outcome.next ?_, fun hb => congrArg Host.Outcome.next ?_⟩
  · have hx := State.ownerTakes_bound (code := .bind) hr hi (takeBind_of_unbound (p := p) hb) rfl
    rw [State.bindSource_eq, State.source_setSource_same] at hx
    exact hx
  · rw [State.ownerTakes_bound hr hi (takeBind_of_binder hb) rfl, hb]
    rfl

/-! ## UNBIND -/

theorem SrcState.claimant_isSome_eq_false {x : SrcState} (h : ¬∃ q, x = .claimed q) : x.claimant.isSome = false := by
  cases x with
  | claimed q => exact absurd ⟨q, rfl⟩ h
  | _ => rfl

/-- The line of a source: the wired source of the same number (R1). -/
theorem lineOf_eq_some_iff (i : SourceNo) (n : LineNo) : lineOf i = some n ↔ sourceOf n = i := by
  simp only [lineOf, sourceOf, Fin.ext_iff, Option.dite_none_right_eq_some, Option.some.injEq, exists_prop]
  omega

/-- A changed qualify field acts on the line of its source alone (R14). -/
theorem State.line_requalifyLine (s : State) (i : SourceNo) (former : Fin 16) (n : LineNo) :
    (s.requalifyLine i former).line n =
      if sourceOf n = i ∧ (s.source i).qualify ≠ former then
        (s.line n).requalify s.samplerTime (s.source i).qualify.val
      else s.line n := by
  simp only [← lineOf_eq_some_iff]
  unfold State.requalifyLine
  cases lineOf i with
  | none => simp
  | some m =>
    by_cases hq : (s.source i).qualify = former
    · simp [hq]
    · by_cases hm : m = n
      · subst hm; simp [hq]
      · simp [hq, hm]

/-- A qualify time of 0 ends every span at once (R44). -/
theorem Line.requalify_zero (l : Line) (now : Nat) :
    l.requalify now 0 = if l.span ≠ none then { l with qualified := l.raw, span := none, reports := [] } else l := by
  cases h : l.span with
  | none => simpa using Line.requalify_of_no_span h now 0
  | some start => simpa using Line.requalify_of_reached h (Nat.zero_le (now - start))

/-- The part before the Offer Unit follows an UNBIND (R30). -/
def State.unbound (s : State) (i : SourceNo) : State :=
  ((s.setSource i SourceRec.default).stopTimer i).requalifyLine i (s.source i).qualify

theorem State.unbindSource_eq (s : State) (i : SourceNo) : s.unbindSource i = State.follow s (s.unbound i) := rfl

section

variable (s : State) (i : SourceNo)

theorem State.source_unbound (j : SourceNo) :
    (s.unbound i).source j = if i = j then SourceRec.default else s.source j := by
  simp [State.unbound]

theorem State.timer_unbound (j : SourceNo) : (s.unbound i).timer j = if i = j then none else s.timer j := by
  simp [State.unbound]

theorem State.line_unbound (n : LineNo) :
    (s.unbound i).line n =
      if sourceOf n = i ∧ (s.source i).qualify ≠ 0 ∧ (s.line n).span ≠ none then
        { s.line n with qualified := (s.line n).raw, span := none, reports := [] }
      else s.line n := by
  have hq : ((s.setSource i SourceRec.default).stopTimer i).source i = SourceRec.default := by simp
  rw [State.unbound, State.line_requalifyLine, hq]
  simp only [State.line_stopTimer, State.line_setSource]
  rw [show SourceRec.default.qualify.val = 0 from rfl, Line.requalify_zero, ← ite_and]
  exact if_congr (and_assoc.trans (and_congr_right' (and_congr_left' ne_comm))) rfl rfl

theorem State.keepsSurroundings_unbound :
    KeepsSurroundings { s with lines := (s.unbound i).lines } (s.unbound i) := by
  constructor <;> simp [State.unbound]

theorem State.keepsOtherSources_unbound : KeepsOtherSources i s (s.unbound i) :=
  fun j hj => by simp [State.source_unbound, State.timer_unbound, Ne.symm hj]

theorem State.links_unbound : (s.unbound i).links = s.links := by simp [State.unbound]

theorem State.claims_unbound : (s.unbound i).claims = s.claims := by simp [State.unbound]

theorem State.queues_unbound : (s.unbound i).queues = s.queues := by simp [State.unbound]

theorem State.power_unbound : (s.unbound i).power = s.power := by simp [State.unbound]

/-- But for the line, an UNBIND is a change of one source; the Offer Unit reads no line. -/
theorem ChangesOneSource.unbound (p : Port) :
    ChangesOneSource p i { s with lines := (s.unbound i).lines } (State.follow s (s.unbound i)) where
  surroundings := (s.keepsSurroundings_unbound i).follow s
  otherSources := s.keepsOtherSources_unbound i
  otherLinks q _ := congrArg (Table.at · q) (s.links_unbound i)
  offers := (State.offersFollow_follow (by simp [State.unbound])).of_before rfl rfl rfl

end

theorem takeUnbind_of_binder {p : Port} {i : SourceNo} {s : State} (hb : (s.source i).binder = some p)
    (hc : ¬∃ q, (s.source i).state = .claimed q) :
    takeUnbind p i s = boundAnswer (State.follow s (s.unbound i)) i := by
  simp only [takeUnbind, if_pos hb, SrcState.claimant_isSome_eq_false hc, Bool.false_eq_true, if_false,
    State.unbindSource_eq]

/-- Settles O23: the record and the timer go, the line is brought up to date, and the offers follow. -/
theorem unbindReturnsTheDefaultRecord : Obligations.UnbindReturnsTheDefaultRecord := by
  intro p b i s hr hi hb hc
  have hs := (State.source_unbound s i i).trans (if_pos rfl)
  have ht := (State.timer_unbound s i i).trans (if_pos rfl)
  exact ⟨_, congrArg Host.Outcome.next (State.ownerTakes_bound hr hi (takeUnbind_of_binder hb hc) hs),
    (ChangesOneSource.unbound s i p).answer _, hs, ht, s.claims_unbound i, s.queues_unbound i,
    (State.answered_answer (s.links_unbound i) (s.power_unbound i) p .unbind .ok _).1, s.line_unbound i⟩

/-! ## LEND, RECALL and RETURN -/

theorem portArg_of {d : Byte} {q : Port} (h : d.toNat = q.val) : portArg d = some q := by
  simp [portArg, h]

/-- The byte that names a port. -/
theorem byteOf_port {d : Byte} {q : Port} (h : d.toNat = q.val) : byteOf q.val = d := by
  rw [← h]; simp [byteOf]

section

variable {p q : Port} {i : SourceNo} {s : State}

theorem takeLend_accepted (hb : (s.source i).binder = some p) (hq : q ≠ p) (hl : (s.source i).borrower = none) :
    takeLend p q i s = boundAnswer (s.setBorrower i (some q)) i := by
  simp only [takeLend, if_pos hb, if_neg hq, hl, Option.isSome_none, Bool.false_eq_true, if_false]

theorem takeRecall_accepted (hb : (s.source i).binder = some p) (hl : (s.source i).borrower ≠ none) :
    takeRecall p i s = boundAnswer (s.setBorrower i none) i := by
  rw [takeRecall, if_pos hb, if_pos (Option.isSome_iff_ne_none.2 hl)]

theorem takeReturn_accepted (hl : (s.source i).borrower = some p) :
    takeReturn p i s = boundAnswer (s.returnSource p i) i := if_pos hl

end

theorem State.source_setBorrower (s : State) (i : SourceNo) (q : Option Port) :
    (s.setBorrower i q).source i = { s.source i with borrower := q } := by
  simp [State.setBorrower]

theorem ChangesOneSource.setBorrower (p : Port) (i : SourceNo) (s : State) (q : Option Port) :
    ChangesOneSource p i s (s.setBorrower i q) where
  surroundings := KeepsSurroundings.follow (by constructor <;> rfl) s
  otherSources j hj := by simp [State.setBorrower, Ne.symm hj]
  otherLinks r _ := State.link_setBorrower s i q r
  offers := State.offersFollow_follow rfl

/-- An incident reaches a queue alone, which the Offer Unit does not follow. -/
theorem ChangesOneSource.writeIncident {p : Port} {i : SourceNo} {s t : State} (h : ChangesOneSource p i s t)
    (k : IncidentKind) (o : Option Port) (d : Byte) (n : Time) :
    ChangesOneSource p i s (t.writeIncident k i o d n) where
  surroundings := h.surroundings.trans (by constructor <;> simp)
  otherSources j hj := by simpa only [State.source_writeIncident, State.timer_writeIncident] using h.otherSources j hj
  otherLinks q hq := by simpa only [State.link_writeIncident] using h.otherLinks q hq
  offers := h.offers.of_eq (by simp) (by simp) (by simp)

/-- A loan returned is a borrower removed and an incident. -/
theorem ChangesOneSource.returnSource (p : Port) (i : SourceNo) (s : State) :
    ChangesOneSource p i s (s.returnSource p i) := (ChangesOneSource.setBorrower p i s none).writeIncident _ _ _ _

theorem State.source_returnSource (s : State) (p : Port) (i : SourceNo) :
    (s.returnSource p i).source i = { s.source i with borrower := none } := by
  simp [State.returnSource, State.source_setBorrower]

/-- The binder, whom a RETURN leaves in place, gets the incident. -/
theorem State.queue_returnSource {s : State} {i : SourceNo} {q : Port} (hb : (s.source i).binder = some q)
    (p r : Port) :
    (s.returnSource p i).queue r =
      if r = q then (s.queue r).push ⟨.loanEnded, i, some p, 1#8, s.partTime⟩ else s.queue r := by
  simp [State.returnSource, State.queue_writeIncident, State.source_setBorrower, hb, eq_comm]

/-- LEND taken. -/
theorem exec_lend_accepted {p q : Port} {b d : Byte} {i : SourceNo} {s : State} (hr : Ready s p (.lend p b d))
    (hi : b.toNat = i.val) (hd : d.toNat = q.val) (hb : (s.source i).binder = some p) (hq : q ≠ p)
    (hl : (s.source i).borrower = none) :
    exec (.lend p b d) s = .next ((s.setBorrower i (some q)).answer p
      (some ⟨HostCode.lend.byte, .ok,
        [b, byteOf p.val, d, (s.source i).state.byte, portByte (s.source i).state.claimant]⟩) true) := by
  refine congrArg Host.Outcome.next ((State.ownerTakes_bound hr hi ?_ (State.source_setBorrower s i (some q))).trans ?_)
  · simp only [portArg_of hd, takeLend_accepted hb hq hl]
  · simp only [hb, portByte, byteOf_port hd]

/-- Settles O24: LEND and RECALL write the borrower, RETURN writes the incident as well. -/
theorem lendingMovesTheBorrower : Obligations.LendingMovesTheBorrower := by
  intro p b d i s hi
  refine ⟨fun q hr hd hb hq hl => ?_, fun hr hb hl => ?_, fun q hr hl hb => ?_⟩
  · exact ⟨_, exec_lend_accepted hr hi hd hb hq hl, (ChangesOneSource.setBorrower p i s _).answer _,
      State.source_setBorrower s i _, by simp, by simp, by simp,
      (State.answered_answer (by simp) (by simp) p .lend .ok _).1⟩
  · have hs := State.source_setBorrower s i none
    have hx := State.ownerTakes_bound (code := .recallLoan) hr hi (takeRecall_accepted hb hl) hs
    rw [hb] at hx
    exact ⟨_, congrArg Host.Outcome.next hx, (ChangesOneSource.setBorrower p i s _).answer _, hs, by simp, by simp,
      by simp, (State.answered_answer (by simp) (by simp) p .recallLoan .ok _).1⟩
  · have hs := State.source_returnSource s p i
    have hx := State.ownerTakes_bound (code := .returnLoan) hr hi (takeReturn_accepted hl) hs
    rw [hb] at hx
    exact ⟨_, congrArg Host.Outcome.next hx, (ChangesOneSource.returnSource p i s).answer _, hs, by simp, by simp,
      State.queue_returnSource hb p, (State.answered_answer (by simp) (by simp) p .returnLoan .ok _).1⟩

end Sys2Proof.Machine

/-! PROOF. POST, the binding commands' refusals and the event lines (O20, O21, O46, O47). An event is `takeEvent` followed
by the Offer Unit, whether POST or a qualified change brings it; a refusal is a taking that answers and leaves the part. -/

namespace Sys2Proof.Machine

/-! ## One event taken -/

/-- An event on one source reaches no block but the Source Table, the Deadline Unit and the Incident Queues. -/
theorem State.keepsSurroundings_takeEvent (s : State) (i : SourceNo) : KeepsSurroundings s (s.takeEvent i) := by
  constructor <;> simp

/-- What an event does is read off the record, the timer and the queues of its source alone. -/
theorem EventTaken.of_eq {i : SourceNo} {s t u : State} (h : EventTaken i s t) (hs : u.source i = t.source i)
    (ht : u.timer i = t.timer i) (hq : u.queues = t.queues) : EventTaken i s u := by
  have queue : u.queue = t.queue := by funext q; rw [State.queue, State.queue, hq]
  refine ⟨fun h0 => ?_, fun h0 => ?_⟩
  · rw [hs, ht, hq]
    exact h.quiet h0
  · rw [hs, ht, SaturationWritten, queue]
    exact h.other h0

/-! ## POST (R56) -/

section

variable {p : Port} {i : SourceNo} {s : State}

theorem takePost_accepted (hi : 64 ≤ i.val) (hp : (s.source i).posters.getLsbD p.val = true)
    (he : (s.source i).enabled = true) :
    takePost p i s =
      (State.follow s (s.takeEvent i), okWith (countPayload (State.follow s (s.takeEvent i)) i)) := by
  rw [takePost, if_pos ((isPosted_iff i).2 hi), PortSet.has, if_pos hp, if_pos he]

theorem takePost_wired (hi : i.val < 64) : takePost p i s = (s, refuse .badArgument) :=
  if_neg (by rw [isPosted_iff]; omega)

theorem takePost_denied (hi : 64 ≤ i.val) (hp : (s.source i).posters.getLsbD p.val = false) :
    takePost p i s = (s, refuse .denied) := by
  rw [takePost, if_pos ((isPosted_iff i).2 hi), PortSet.has, hp, if_neg Bool.false_ne_true]

theorem takePost_disabled (hi : 64 ≤ i.val) (hp : (s.source i).posters.getLsbD p.val = true)
    (he : (s.source i).enabled = false) : takePost p i s = (s, refuse .disabled) := by
  rw [takePost, if_pos ((isPosted_iff i).2 hi), PortSet.has, if_pos hp, he, if_neg Bool.false_ne_true]

end

/-- Settles O20: the event is taken, the offers follow, and the answer is read off the record that results. -/
theorem postTakesOneEvent : Obligations.PostTakesOneEvent := by
  intro p b i s hr hi h64 hp he
  obtain ⟨taken, others⟩ := s.eventTaken_takeEvent i
  have hx := State.ownerTakes_onSource (code := .post) (take := takePost p) hr hi
  rw [takePost_accepted h64 hp he, countPayload, byteOf_source hi] at hx
  exact ⟨_, congrArg Host.Outcome.next hx, taken.of_eq (by simp) (by simp) (by simp),
    .of_follow (s.keepsSurroundings_takeEvent i) others (by simp) (by simp) p _, by simp,
    (State.answered_answer (by simp) (by simp) p .post .ok _).1⟩

/-! ## The binding commands refused (R28) -/

theorem portArg_out {d : Byte} (h : 4 ≤ d.toNat) : portArg d = none := by
  simp [portArg, h]

section

variable {p q : Port} {i : SourceNo} {s : State}

theorem takeBind_inUse (hq : q ≠ p) (hb : (s.source i).binder = some q) : takeBind p i s = (s, refuse .inUse) := by
  simp only [takeBind, hb, if_neg hq]

theorem takeUnbind_denied (hb : (s.source i).binder ≠ some p) : takeUnbind p i s = (s, refuse .denied) := if_neg hb

theorem takeUnbind_busy (hb : (s.source i).binder = some p) (hc : (s.source i).state = .claimed q) :
    takeUnbind p i s = (s, refuse .busy) := by
  rw [takeUnbind, if_pos hb, hc]
  rfl

theorem takeLend_denied (hb : (s.source i).binder ≠ some p) : takeLend p q i s = (s, refuse .denied) := if_neg hb

theorem takeLend_self (hb : (s.source i).binder = some p) : takeLend p p i s = (s, refuse .badArgument) := by
  rw [takeLend, if_pos hb, if_pos rfl]

theorem takeLend_lent (hb : (s.source i).binder = some p) (hq : q ≠ p) (hl : (s.source i).borrower ≠ none) :
    takeLend p q i s = (s, refuse .lent) := by
  rw [takeLend, if_pos hb, if_neg hq, if_pos (Option.isSome_iff_ne_none.2 hl)]

theorem takeRecall_denied (hb : (s.source i).binder ≠ some p) : takeRecall p i s = (s, refuse .denied) := if_neg hb

theorem takeRecall_notLent (hb : (s.source i).binder = some p) (hl : (s.source i).borrower = none) :
    takeRecall p i s = (s, refuse .notLent) := by
  rw [takeRecall, if_pos hb, hl]
  rfl

theorem takeReturn_denied (hl : (s.source i).borrower ≠ some p) : takeReturn p i s = (s, refuse .denied) := if_neg hl

end

section

variable {p : Port} {b d : Byte} {i : SourceNo} {s : State}

/-- LEND refused by its range check of the borrower byte. -/
theorem exec_lend_portOut (hr : Ready s p (.lend p b d)) (hi : b.toNat = i.val) (hd : 4 ≤ d.toNat) :
    exec (.lend p b d) s = .next (refusedWith s p .lend .badArgument) := by
  refine congrArg Host.Outcome.next (State.ownerTakes_onSource_refuse hr hi ?_)
  rw [portArg_out hd]

/-- LEND to a port in range, refused by a later check. -/
theorem exec_lend_refused {q : Port} {r : Result} (hr : Ready s p (.lend p b d)) (hi : b.toNat = i.val)
    (hd : d.toNat = q.val) (ht : takeLend p q i s = (s, refuse r)) :
    exec (.lend p b d) s = .next (refusedWith s p .lend r) := by
  refine congrArg Host.Outcome.next (State.ownerTakes_onSource_refuse hr hi ?_)
  simpa only [portArg_of hd] using ht

end

/-- Settles O21: each command stops at its first check that fails. -/
theorem postAndBindingRefusalsInOrder : Obligations.PostAndBindingRefusalsInOrder := by
  intro p b d s
  refine ⟨fun hb => ?_, fun i hi => ⟨fun hr => ?post, fun hr ⟨q, hq, hb⟩ => ?bind, fun hr => ?unbind, fun hr => ?lend,
    fun hr => ?recallLoan, fun hr hl => ?returnLoan⟩⟩
  · refine ⟨fun hr => ?_, fun hr => ?_, fun hr => ?_, fun hr => ?_, fun hr => ?_, fun hr => ?_⟩ <;>
      exact congrArg Host.Outcome.next (State.ownerTakes_onSource_out hr hb)
  case post =>
    refine ⟨fun hw => ?_, fun h64 hp => ?_, fun h64 hp he => ?_⟩ <;>
      refine congrArg Host.Outcome.next (State.ownerTakes_onSource_refuse hr hi ?_)
    · exact takePost_wired hw
    · exact takePost_denied h64 hp
    · exact takePost_disabled h64 hp he
  case bind => exact congrArg Host.Outcome.next (State.ownerTakes_onSource_refuse hr hi (takeBind_inUse hq hb))
  case unbind =>
    refine ⟨fun hb => ?_, fun hb ⟨q, hc⟩ => ?_⟩ <;>
      refine congrArg Host.Outcome.next (State.ownerTakes_onSource_refuse hr hi ?_)
    · exact takeUnbind_denied hb
    · exact takeUnbind_busy hb hc
  case lend =>
    refine ⟨exec_lend_portOut hr hi, fun hd hb => ?_, fun hd hb => ?_, fun hd hq hb hl => ?_⟩
    · exact exec_lend_refused (q := ⟨_, hd⟩) hr hi rfl (takeLend_denied hb)
    · exact exec_lend_refused hr hi hd (takeLend_self hb)
    · exact exec_lend_refused (q := ⟨_, hd⟩) hr hi rfl (takeLend_lent hb (fun h => hq (congrArg Fin.val h)) hl)
  case recallLoan =>
    refine ⟨fun hb => ?_, fun hb hl => ?_⟩ <;>
      refine congrArg Host.Outcome.next (State.ownerTakes_onSource_refuse hr hi ?_)
    · exact takeRecall_denied hb
    · exact takeRecall_notLent hb hl
  case returnLoan => exact congrArg Host.Outcome.next (State.ownerTakes_onSource_refuse hr hi (takeReturn_denied hl))

/-! ## Raw changes and spans (R45, R46, R59) -/

/-- The change that leaves a line at a level, by name. -/
theorem Edge.toward_eq (level : Bool) : Edge.toward level = if level then .rise else .fall := by cases level <;> rfl

section

variable {l : Line} {level : Bool} {now qualify : Nat}

/-- Without an untaken report the sampler measures against the level in force. -/
theorem Line.aimed_of_no_report (h : l.reports = []) : l.aimed = l.qualified := by
  rw [Line.aimed, h]
  rfl

/-- A change back to the qualified level ends the span. -/
theorem Line.sample_back (h : l.reports = []) (hr : l.raw ≠ level) (hq : level = l.qualified) :
    l.sample level now qualify = { l with raw := level, span := none } := by
  rw [Line.sample, if_neg hr, Line.aimed_of_no_report h, if_pos hq]

/-- A change away from the qualified level begins a span. -/
theorem Line.sample_away (h : l.reports = []) (hr : l.raw ≠ level) (hq : level ≠ l.qualified) (h0 : qualify ≠ 0) :
    l.sample level now qualify = { l with raw := level, span := some now } := by
  rw [Line.sample, if_neg hr, Line.aimed_of_no_report h, if_neg hq, Line.begin, if_neg h0]

/-- With a qualify time of 0 it is a qualified change at once. -/
theorem Line.sample_away_zero (h : l.reports = []) (hr : l.raw ≠ level) (hq : level ≠ l.qualified) :
    l.sample level now 0 =
      { l with raw := level, span := none, reports := [if level then .rise else .fall] } := by
  rw [Line.sample, if_neg hr, Line.aimed_of_no_report h, if_neg hq, Line.begin, if_pos rfl, Line.report, h,
    Edge.toward_eq]
  rfl

theorem Line.spanReached_of_span {start : Nat} (h : l.span = some start) :
    l.spanReached now qualify = decide (qualify ≤ now - start) := by
  rw [Line.spanReached, h]

end

section

variable {n : LineNo} {level : Bool} {s : State}

theorem exec_lineRawChange_of_sampled (h : s.sampled n = true) :
    exec (.lineRawChange n level) s = .next (s.setLine n
      (({ s.line n with pin := level } : Line).sample level s.samplerTime (s.qualifyTime n))) :=
  congrArg (fun l => Host.Outcome.next (s.setLine n l)) (if_pos h)

theorem exec_lineRawChange_of_not_sampled (h : s.sampled n = false) :
    exec (.lineRawChange n level) s = .next (s.setLine n { s.line n with pin := level }) :=
  congrArg (fun l => Host.Outcome.next (s.setLine n l)) (if_neg (by simp [h]))

theorem exec_qualifyTimeReached_of_reached (h : s.sampled n = true)
    (hs : (s.line n).spanReached s.samplerTime (s.qualifyTime n) = true) :
    exec (.qualifyTimeReached n) s = .next (s.setLine n (s.line n).report) :=
  congrArg Host.Outcome.next (if_pos (by rw [h, hs]; rfl))

theorem exec_qualifyTimeReached_of_short
    (hs : (s.line n).spanReached s.samplerTime (s.qualifyTime n) = false) :
    exec (.qualifyTimeReached n) s = .next s :=
  congrArg Host.Outcome.next (if_neg (by rw [hs, Bool.and_false]; exact Bool.false_ne_true))

end

/-- Settles O46: the sampler compares the raw level with the qualified level, and a span with the qualify time. -/
theorem rawChangesAndSpans : Obligations.RawChangesAndSpans := by
  intro n level s
  refine ⟨exec_lineRawChange_of_not_sampled, fun h hn hr => ?_, fun start h hs => ?_⟩
  · rw [exec_lineRawChange_of_sampled h]
    refine ⟨fun hq => ?_, fun hq h0 => ?_, fun hq h0 => ?_⟩ <;> refine congrArg (Host.Outcome.next <| s.setLine n ·) ?_
    · exact Line.sample_back (l := { s.line n with pin := level }) hn hr hq
    · exact Line.sample_away (l := { s.line n with pin := level }) hn hr hq fun hv => h0 (Fin.ext hv)
    · rw [State.qualifyTime, h0]
      exact Line.sample_away_zero (l := { s.line n with pin := level }) hn hr hq
  · have reached := Line.spanReached_of_span (now := s.samplerTime) (qualify := s.qualifyTime n) hs
    refine ⟨fun hq => ?_, fun hq => exec_qualifyTimeReached_of_short (reached.trans (decide_eq_false (by
      rw [State.qualifyTime]; omega)))⟩
    rw [exec_qualifyTimeReached_of_reached h (reached.trans (decide_eq_true hq)), Line.report, Edge.toward_eq]

/-! ## A qualified change taken (R45, R47, R48, R61) -/

/-- The trigger table (R47): a level source takes no event while it is not QUIET. -/
theorem SourceRec.takesEdge_iff (r : SourceRec) (e : Edge) :
    r.takesEdge e = true ↔
      r.trigger = .rising ∧ e = .rise ∨ r.trigger = .falling ∧ e = .fall ∨ r.trigger = .both ∨
        r.trigger = .high ∧ e = .rise ∧ r.state = .quiet ∨ r.trigger = .low ∧ e = .fall ∧ r.state = .quiet := by
  unfold SourceRec.takesEdge
  cases r.trigger <;> cases e <;> simp

theorem Edge.level_eq_decide (e : Edge) : e.level = decide (e = .rise) := by cases e <;> rfl

theorem State.wakeReports_reportWake (s : State) :
    s.reportWake.wakeReports = if s.power = .watch then s.wakeReports + 1 else s.wakeReports := by
  unfold State.reportWake
  split <;> rfl

/-- The part with a qualified change of a line in force and its report gone, before any event of its source (R45). -/
def State.withChange (s : State) (n : LineNo) (e : Edge) (rest : List Edge) : State :=
  s.setLine n { s.line n with qualified := decide (e = .rise), reports := rest }

section

variable (s : State) (n : LineNo) (e : Edge) (rest : List Edge)

@[simp] theorem State.claims_withChange : (s.withChange n e rest).claims = s.claims := rfl
@[simp] theorem State.links_withChange : (s.withChange n e rest).links = s.links := rfl
@[simp] theorem State.offers_withChange : (s.withChange n e rest).offers = s.offers := rfl
@[simp] theorem State.power_withChange : (s.withChange n e rest).power = s.power := rfl
@[simp] theorem State.partTime_withChange : (s.withChange n e rest).partTime = s.partTime := rfl
@[simp] theorem State.samplerTime_withChange : (s.withChange n e rest).samplerTime = s.samplerTime := rfl
@[simp] theorem State.settings_withChange : (s.withChange n e rest).settings = s.settings := rfl
@[simp] theorem State.wakeReports_withChange : (s.withChange n e rest).wakeReports = s.wakeReports := rfl
@[simp] theorem State.line_withChange (m : LineNo) :
    (s.withChange n e rest).line m =
      if n = m then { s.line n with qualified := decide (e = .rise), reports := rest } else s.line m :=
  State.line_setLine _ _ _ _

/-- An event reads no line, so what it does is the same with the change in force (R48). -/
theorem State.eventTaken_withChange (i : SourceNo) :
    EventTaken i s ((s.withChange n e rest).takeEvent i) ∧
      KeepsOtherSources i s ((s.withChange n e rest).takeEvent i) := by
  obtain ⟨⟨quiet, other⟩, others⟩ := (s.withChange n e rest).eventTaken_takeEvent i
  exact ⟨⟨quiet, other⟩, others⟩

end

section

variable {n : LineNo} {e : Edge} {rest : List Edge} {s : State}

theorem State.takeChange_of_event (he : (s.source (sourceOf n)).enabled = true)
    (ht : (s.source (sourceOf n)).takesEdge e = true) :
    s.takeChange n e rest = State.follow s (((s.withChange n e rest).takeEvent (sourceOf n)).reportWake) := by
  simp only [State.takeChange, State.withChange, Edge.level_eq_decide, State.source_setLine, he, ht, Bool.and_self,
    if_true]

theorem State.takeChange_of_no_event
    (h : ¬((s.source (sourceOf n)).enabled = true ∧ (s.source (sourceOf n)).takesEdge e = true)) :
    s.takeChange n e rest = s.withChange n e rest := by
  simp only [State.takeChange, State.withChange, Edge.level_eq_decide, State.source_setLine, Bool.and_eq_true, if_neg h]

/-- The oldest report of a sampled line is taken. -/
theorem exec_qualifiedChange_of_oldest (hs : s.sampled n = true) (hr : (s.line n).reports = e :: rest) :
    exec (.qualifiedChange n e) s = .next (s.takeChange n e rest) := by
  simp only [exec, execQualifiedChange, hr, hs, beq_self_eq_true, Bool.and_self, if_true]

end

/-- Settles O47: the change is in force first, then its source takes the event the trigger table gives it, if any. -/
theorem qualifiedChangeMapsToAnEvent : Obligations.QualifiedChangeMapsToAnEvent := by
  intro n e rest s hs hr
  rw [exec_qualifiedChange_of_oldest hs hr]
  dsimp only
  rw [← SourceRec.takesEdge_iff]
  refine ⟨fun h => congrArg Host.Outcome.next (State.takeChange_of_no_event h), fun ⟨he, ht⟩ => ⟨_, rfl, ?_⟩⟩
  obtain ⟨taken, others⟩ := s.eventTaken_withChange n e rest (sourceOf n)
  rw [State.takeChange_of_event he ht]
  refine ⟨by simp, fun m hm => by simp [Ne.symm hm], taken.of_eq (by simp) (by simp) (by simp), fun j hj => ?_,
    by simp, by simp, State.offersFollow_follow (by simp), by simp, by simp, by simp, by simp, ?_⟩
  · simpa only [State.source_follow, State.timer_follow, State.source_reportWake, State.timer_reportWake]
      using others j hj
  · simp [State.wakeReports_reportWake]

end Sys2Proof.Machine

/-! PROOF. Levels, running levels, offer sets and tops (O10 to O13). The order of sources is a strict total order, since the
default positions are distinct; `mostUrgent` picks its first member. -/

namespace Sys2Proof.Machine

/-! ## The order of sources (R2, R64) -/

theorem defaultPosition_injective {i j : SourceNo} (h : defaultPosition i = defaultPosition j) : i = j := by
  unfold defaultPosition at h
  apply Fin.ext
  split_ifs at h <;> omega

section

variable {s : State} {i j k : SourceNo}

theorem State.moreUrgent_iff : s.moreUrgent i j = true ↔
    s.level i < s.level j ∨ (s.level i = s.level j ∧ defaultPosition i < defaultPosition j) := by
  simp [State.moreUrgent, ranksBefore]

theorem State.moreUrgent_trans (h : s.moreUrgent i j = true) (h' : s.moreUrgent j k = true) :
    s.moreUrgent i k = true := by
  rw [State.moreUrgent_iff] at h h' ⊢
  omega

/-- Of two distinct sources exactly one ranks first. -/
theorem State.moreUrgent_iff_not (hij : i ≠ j) : s.moreUrgent i j = true ↔ s.moreUrgent j i = false := by
  have apart : defaultPosition i ≠ defaultPosition j := fun h => hij (defaultPosition_injective h)
  rw [← Bool.not_eq_true, State.moreUrgent_iff, State.moreUrgent_iff]
  omega

end

/-! ## Levels (R63, R65) -/

theorem levelOf_numbered (i : SourceNo) {n : Fin 256} (h : n ≠ 0) : levelOf i n = n.val := if_neg h

theorem levelOf_unnumbered (i : SourceNo) :
    levelOf i 0 = if i.val < 8 ∨ (64 ≤ i.val ∧ i.val < 72) then 0 else 256 := by
  simp [levelOf, isHighBand]

/-- The level of a numbered source is reported as it is. -/
theorem reportedLevel_numbered {n : Nat} (h : n ≤ 255) : reportedLevel n = BitVec.ofNat 8 n :=
  if_neg (by simp only [Config.unnumberedLowLevel]; omega)

theorem unnumberedMark_numbered {n : Nat} (h1 : 1 ≤ n) (h : n ≤ 255) : unnumberedMark n = false := by
  simp only [unnumberedMark, Config.unnumberedLowLevel, Bool.or_eq_false_iff, beq_eq_false_iff_ne]
  omega

/-- The four runs of R2. -/
theorem defaultPosition_runs (i : SourceNo) : (i.val < 8 → defaultPosition i = i.val) ∧
    (64 ≤ i.val → i.val < 72 → defaultPosition i = i.val - 56) ∧
    (8 ≤ i.val → i.val < 64 → defaultPosition i = i.val + 8) ∧ (72 ≤ i.val → defaultPosition i = i.val) := by
  unfold defaultPosition
  refine ⟨?_, ?_, ?_, ?_⟩ <;> intros <;> split_ifs <;> omega

/-- Settles O12: the tables of R63 and R65 line by line, then the order of R64. -/
theorem levelsAndDefaultPositions : Obligations.LevelsAndDefaultPositions :=
  ⟨fun _ _ => rfl, fun i _ => levelOf_numbered i, levelOf_unnumbered, ⟨rfl, rfl⟩,
    fun _ h1 h => ⟨reportedLevel_numbered h, unnumberedMark_numbered h1 h⟩, ⟨rfl, rfl⟩, defaultPosition_runs,
    fun _ _ => defaultPosition_injective, fun _ _ _ hij => ⟨State.moreUrgent_iff_not hij, State.moreUrgent_iff⟩⟩

/-! ## Running levels (R68) -/

theorem ClaimEntry.isHeld_iff (e : ClaimEntry) : e.isHeld = true ↔ e.status = .held := by simp [ClaimEntry.isHeld]

theorem runningLevelOf_of_held {e : ClaimEntry} (h : e.isHeld = true) (l : List ClaimEntry) :
    runningLevelOf (e :: l) = min e.level (runningLevelOf l) := if_pos h

theorem runningLevelOf_of_not_held {e : ClaimEntry} (h : e.isHeld = false) (l : List ClaimEntry) :
    runningLevelOf (e :: l) = runningLevelOf l := by simp [runningLevelOf, h]

theorem runningLevelOf_le {l : List ClaimEntry} {e : ClaimEntry} (he : e ∈ l) (hh : e.isHeld = true) :
    runningLevelOf l ≤ e.level := by
  induction l with
  | nil => cases he
  | cons x l ih =>
    rcases List.mem_cons.1 he with rfl | he
    · rw [runningLevelOf_of_held hh]; exact min_le_left _ _
    · cases hx : x.isHeld
      · rw [runningLevelOf_of_not_held hx]; exact ih he
      · rw [runningLevelOf_of_held hx]; exact (min_le_right _ _).trans (ih he)

/-- The running level is the idle one or the level at claim of a HELD entry. -/
theorem runningLevelOf_eq_idle_or_held (l : List ClaimEntry) :
    runningLevelOf l = 257 ∨ ∃ e ∈ l, e.isHeld = true ∧ e.level = runningLevelOf l := by
  induction l with
  | nil => exact .inl rfl
  | cons x l ih =>
    have later : (∃ e ∈ l, e.isHeld = true ∧ e.level = runningLevelOf l) →
        ∃ e ∈ x :: l, e.isHeld = true ∧ e.level = runningLevelOf l :=
      fun ⟨e, he, h⟩ => ⟨e, List.mem_cons_of_mem _ he, h⟩
    cases hx : x.isHeld
    · rw [runningLevelOf_of_not_held hx]
      exact ih.imp_right later
    · rw [runningLevelOf_of_held hx]
      rcases le_total x.level (runningLevelOf l) with hle | hle
      · rw [min_eq_left hle]
        exact .inr ⟨x, List.mem_cons_self, hx, rfl⟩
      · rw [min_eq_right hle]
        exact ih.imp_right later

/-- Settles O13: the running level is attained, unless it is the idle one, and bounds every HELD level. -/
theorem runningLevelIsTheSmallestHeldLevel : Obligations.RunningLevelIsTheSmallestHeldLevel := by
  intro p s
  have attained := runningLevelOf_eq_idle_or_held (s.claimList p)
  simp only [ClaimEntry.isHeld_iff] at attained
  have least : ∀ e ∈ s.claimList p, e.status = .held → s.runningLevel p ≤ e.level :=
    fun e he hh => runningLevelOf_le he (e.isHeld_iff.2 hh)
  refine ⟨fun hr => attained.resolve_right ?_, fun ⟨e, he, hh, hle⟩ => ⟨attained.elim (fun hi => ?_) id, least⟩⟩
  · rintro ⟨e, he, hh, -⟩
    rw [hr e he] at hh
    cases hh
  · have idle : s.runningLevel p = 257 := hi
    have bound := least e he hh
    exact ⟨e, he, hh, by omega⟩

/-- RETRACTED entries do not enter the running level. -/
theorem runningLevelOf_filter {c : ClaimEntry → Bool} (hc : ∀ e, e.isHeld = true → c e = true) (l : List ClaimEntry) :
    runningLevelOf (l.filter c) = runningLevelOf l := by
  induction l with
  | nil => rfl
  | cons x l ih =>
    cases hx : x.isHeld
    · rw [runningLevelOf_of_not_held hx, ← ih, List.filter_cons]
      split <;> [exact runningLevelOf_of_not_held hx _; rfl]
    · rw [List.filter_cons_of_pos (hc x hx), runningLevelOf_of_held hx, runningLevelOf_of_held hx, ih]

/-! ## Offer sets and tops (R70, R73) -/

/-- Conditions 1 to 3 of R70. -/
theorem SourceRec.candidateFor_iff (r : SourceRec) (p : Port) : r.candidateFor p = true ↔
    r.enabled = true ∧ (r.state = .pending ∨ r.state = .escalated) ∧
      (r.responsible = some p ∨ (r.state = .escalated ∧ r.fallback = some p)) := by
  unfold SourceRec.candidateFor
  cases r.state <;> simp

theorem State.offered_iff {s : State} {p : Port} {i : SourceNo} : s.offered p i = true ↔
    (s.source i).candidateFor p = true ∧ s.level i < (s.offer p).threshold ∧ s.level i < s.runningLevel p := by
  simp [State.offered, State.admissionBound]

theorem State.mem_offerSet {s : State} {p : Port} {i : SourceNo} : i ∈ s.offerSet p ↔ s.offered p i = true := by
  simp [State.offerSet]

/-- Settles O11: the list filters the distinct sources by the five conditions. -/
theorem offerSetConditions : Obligations.OfferSetConditions := by
  intro p s
  refine ⟨(List.nodup_finRange 96).filter _, fun i => ?_⟩
  rw [State.mem_offerSet, State.offered_iff, SourceRec.candidateFor_iff]
  simp only [and_assoc]

section

variable {s : State} {l : List SourceNo} {i : SourceNo}

theorem State.mostUrgent_eq_none_iff : s.mostUrgent l = none ↔ l = [] := by
  cases l with
  | nil => simp [State.mostUrgent]
  | cons j l =>
    unfold State.mostUrgent
    split <;> [simp; (split <;> simp)]

/-- The most urgent source of a list ranks before every other of it. -/
theorem State.moreUrgent_of_mostUrgent (h : s.mostUrgent l = some i) :
    ∀ j ∈ l, j ≠ i → s.moreUrgent i j = true := by
  induction l generalizing i with
  | nil => cases h
  | cons k l ih =>
    intro j hj hne
    unfold State.mostUrgent at h
    split at h
    · rename_i hn
      cases h
      rw [State.mostUrgent_eq_none_iff.1 hn] at hj
      exact absurd (List.mem_singleton.1 hj) hne
    · rename_i m hm
      split at h <;> rename_i hmk <;> cases h
      · rcases List.mem_cons.1 hj with rfl | hj
        · exact hmk
        · exact ih hm j hj hne
      · have hj : j ∈ l := (List.mem_cons.1 hj).resolve_left hne
        by_cases hkm : k = m
        · exact ih (hkm ▸ hm) j hj hne
        · have first : s.moreUrgent k m = true := (State.moreUrgent_iff_not hkm).2 (by simpa using hmk)
          by_cases hjm : j = m
          · exact hjm ▸ first
          · exact State.moreUrgent_trans first (ih hm j hj hjm)

/-- The most urgent source of a list is its member that ranks before every other. -/
theorem State.mostUrgent_eq_some_iff :
    s.mostUrgent l = some i ↔ i ∈ l ∧ ∀ j, j ≠ i → j ∈ l → s.moreUrgent i j = true := by
  refine ⟨fun h => ⟨State.offered_of_mostUrgent h, fun j hne hj => State.moreUrgent_of_mostUrgent h j hj hne⟩,
    fun ⟨hi, first⟩ => ?_⟩
  cases hk : s.mostUrgent l with
  | none =>
    rw [State.mostUrgent_eq_none_iff.1 hk] at hi
    cases hi
  | some k =>
    by_contra hne
    have hki : k ≠ i := fun h => hne (congrArg some h)
    have before := first k hki (State.offered_of_mostUrgent hk)
    rw [State.moreUrgent_iff_not hki.symm, State.moreUrgent_of_mostUrgent hk i hi hki.symm] at before
    cases before

end

theorem State.top_eq_none_iff {s : State} {p : Port} : s.top p = none ↔ ∀ i, s.offered p i = false := by
  simp only [State.top, State.mostUrgent_eq_none_iff, List.eq_nil_iff_forall_not_mem, State.mem_offerSet,
    Bool.not_eq_true]

/-- Settles O10: the top is the most urgent member of the offer set. -/
theorem topIsTheMostUrgentOffer : Obligations.TopIsTheMostUrgentOffer := by
  intro p s
  refine ⟨fun i => ?_, State.top_eq_none_iff⟩
  simp only [State.top, State.mostUrgent_eq_some_iff, State.mem_offerSet, State.moreUrgent_iff]

end Sys2Proof.Machine

/-! PROOF. TOP and SET_THRESHOLD (O8, O9). -/

namespace Sys2Proof.Machine

/-- Settles O8: the payload is that of the top TOP finds, present or absent. -/
theorem topReportsAndRecords : Obligations.TopReportsAndRecords := by
  intro p s hr
  have taken := State.ownerTakes_of_ready hr .top (takeTop p)
  refine ⟨fun i ht => congrArg Host.Outcome.next (taken.trans ?_), fun ht => congrArg Host.Outcome.next (taken.trans ?_)⟩ <;>
  · rw [takeTop, ht]
    rfl

theorem takeSetThreshold_accepted {p : Port} {v : Half} (h : v.toNat ≤ 257) (s : State) :
    takeSetThreshold p v s =
      (State.follow s (s.setOffer p { s.offer p with threshold := v.toNat }), okWith (halfBytes v)) := if_pos h

theorem takeSetThreshold_refused {p : Port} {v : Half} (h : 258 ≤ v.toNat) (s : State) :
    takeSetThreshold p v s = (s, refuse .badArgument) := if_neg (by simp only [Config.openThreshold]; omega)

/-- A new threshold moves neither last-reported tops nor flags, so they follow it. -/
theorem State.flagsFollow_threshold (s : State) (p : Port) (n : Nat) :
    FlagsFollow s (State.follow s (s.setOffer p { s.offer p with threshold := n })) := by
  refine State.flagsFollow_follow fun q => ?_
  rw [State.offer_setOffer]
  split <;> [(rename_i h; subst h; exact ⟨rfl, rfl⟩); exact ⟨rfl, rfl⟩]

/-- Settles O9: a value up to 257 is written and followed, a larger one refused. -/
theorem setThresholdMovesTheBound : Obligations.SetThresholdMovesTheBound := by
  intro p v s hr
  have taken := State.ownerTakes_of_ready hr .setThreshold (takeSetThreshold p v)
  refine ⟨fun hv => ?_, fun hv => congrArg Host.Outcome.next (taken.trans ?_)⟩
  · rw [takeSetThreshold_accepted hv] at taken
    obtain ⟨answered, links⟩ := State.answered_answer (s := s)
      (t := State.follow s (s.setOffer p { s.offer p with threshold := v.toNat })) rfl rfl p .setThreshold .ok (halfBytes v)
    refine ⟨_, congrArg Host.Outcome.next taken, ?_, fun q hq => ?_,
      (s.flagsFollow_threshold p v.toNat).of_eq rfl rfl rfl, ?_, links, rfl, rfl, rfl, rfl, answered⟩
    · simp
    · simp [Ne.symm hq]
    · constructor <;> rfl
  · rw [takeSetThreshold_refused hv]
    rfl

end Sys2Proof.Machine

/-! PROOF. Every step keeps each attention line asserted exactly while its port's top is present (O58). A happening that
changes an offer set is followed by the Offer Unit, which settles the line by the top it finds; every other one leaves
the offer sets as they are. Of the latter BIND and DISABLE change a record that is in no offer set before or after. -/

namespace Sys2Proof.Machine

/-! ## Sources without a binder (R25) -/

/-- Every source without a binder is disabled. -/
def State.UnboundDisabled (s : State) : Prop := ∀ i, (s.source i).binder = none → (s.source i).enabled = false

namespace State.UnboundDisabled

variable {s t : State} (h : s.UnboundDisabled) {i : SourceNo}

include h

theorem of_sources (ht : t.sources = s.sources) : t.UnboundDisabled := by
  intro j
  rw [State.source, ht]
  exact h j

/-- One record is replaced by one that is disabled where it has no binder. -/
theorem change {r : SourceRec} (ht : ∀ j, t.source j = if i = j then r else s.source j)
    (hr : r.binder = none → r.enabled = false) : t.UnboundDisabled := by
  intro j
  rw [ht]
  split <;> [exact hr; exact h j]

theorem setSource {r : SourceRec} (hr : r.binder = none → r.enabled = false) : (s.setSource i r).UnboundDisabled :=
  h.change (s.source_setSource i r) hr

theorem makePending (c : Nat) : (s.makePending i c).UnboundDisabled := h.change (s.source_makePending i · c) (h i)

theorem makeQuiet : (s.makeQuiet i).UnboundDisabled := h.change (s.source_makeQuiet i) (h i)

theorem raiseCount (now : Time) : (s.raiseCount i now).UnboundDisabled :=
  h.change (s.source_raiseCount i · now) (h i)

theorem takeEvent : (s.takeEvent i).UnboundDisabled := by
  unfold State.takeEvent
  split <;> [exact h.makePending 1; exact h.raiseCount _; exact h.raiseCount _; exact h.raiseCount _]

theorem returnClaim : (s.returnClaim i).UnboundDisabled :=
  h.change (s.source_returnClaim i) (by split <;> exact h i)

theorem releaseEntry (p : Port) (e : ClaimEntry) : (State.releaseEntry p s e).UnboundDisabled := by
  unfold State.releaseEntry
  split
  · exact (h.of_sources (by simp)).returnClaim
  · exact h

theorem endLoan (p : Port) (i : SourceNo) : (State.endLoan p s i).UnboundDisabled := by
  refine h.change (r := unlentRecord p (s.source i)) (i := i) (fun j => ?_) (h i)
  rw [State.source_endLoan_eq]
  split <;> [(rename_i hj; rw [hj]); rfl]

/-- A port clear's work on the Source Table binds and enables no source. -/
theorem endLoans_releaseClaims (p : Port) : ((s.releaseClaims p).endLoans p).UnboundDisabled := by
  have released : (s.releaseClaims p).UnboundDisabled :=
    List.foldlRecOn (motive := State.UnboundDisabled) _ (State.releaseEntry p) h fun _ ht e _ => ht.releaseEntry p e
  unfold State.endLoans
  generalize List.finRange 96 = l
  exact List.foldlRecOn (motive := State.UnboundDisabled) l (State.endLoan p) released fun _ ht i _ => ht.endLoan p i

end State.UnboundDisabled

/-! ## Offer sets that stay -/

/-- A top is present exactly where a source is offered. -/
theorem State.top_isSome_iff {s : State} {p : Port} : (s.top p).isSome = true ↔ ∃ i, s.offered p i = true := by
  rw [← Option.ne_none_iff_isSome, Ne, State.top_eq_none_iff]
  simp

/-- A record written that stays a candidate for the same ports at the same level changes no offer set. -/
theorem State.offered_setSource {s : State} {i : SourceNo} {r : SourceRec}
    (hc : r.candidateFor = (s.source i).candidateFor) (hp : r.priority = (s.source i).priority) :
    (s.setSource i r).offered = s.offered := by
  funext p j
  have bound : (s.setSource i r).admissionBound p = s.admissionBound p := rfl
  have record : ((s.setSource i r).source j).candidateFor = (s.source j).candidateFor ∧
      (s.setSource i r).level j = s.level j := by
    rw [State.level, State.level, State.source_setSource]
    split <;> [(rename_i hj; subst hj; exact ⟨hc, by rw [hp]⟩); exact ⟨rfl, rfl⟩]
  rw [State.offered, State.offered, bound, record.1, record.2]

theorem SourceRec.not_candidateFor_of_disabled {r : SourceRec} (h : r.enabled = false) (p : Port) :
    r.candidateFor p = false := by
  rw [← Bool.not_eq_true, SourceRec.candidateFor_iff]
  simp [h]

/-- A QUIET or CLAIMED source is no candidate. -/
theorem SourceRec.not_candidateFor_of_not_waiting {r : SourceRec} (hp : r.state ≠ .pending) (he : r.state ≠ .escalated)
    (p : Port) : r.candidateFor p = false := by
  rw [← Bool.not_eq_true, SourceRec.candidateFor_iff]
  simp [hp, he]

/-- Only a port's own threshold enters its offer set. -/
theorem State.offered_setOffer {s : State} {p q : Port} (o : OfferPort)
    (h : q = p → o.threshold = (s.offer p).threshold) : (s.setOffer p o).offered q = s.offered q := by
  funext i
  have threshold : ((s.setOffer p o).offer q).threshold = (s.offer q).threshold := by
    rw [State.offer_setOffer]
    split <;> [(rename_i hq; subst hq; exact h rfl); rfl]
  rw [State.offered, State.offered, State.admissionBound, threshold]
  rfl

/-- A RETRACTED entry removed changes no running level, so no offer set. -/
theorem State.offered_dropLost (s : State) (p : Port) (i : SourceNo) : (s.dropLost p i).offered = s.offered := by
  have running : (s.dropLost p i).runningLevel = s.runningLevel := by
    funext q
    rw [State.runningLevel, State.dropLost, State.claimList_setClaimList]
    split
    · rename_i hq
      subst hq
      exact runningLevelOf_filter (fun e he => by simp [he]) _
    · rfl
  funext q j
  rw [State.offered, State.offered, State.admissionBound, running]
  rfl

/-! ## The attention lines -/

namespace State.AttentionSound

variable {s t : State}

theorem unbound (h : s.AttentionSound) : s.UnboundDisabled := h.2

/-- After the Offer Unit has followed, each line agrees with the top it found. -/
theorem follow (before : State) (h : t.UnboundDisabled) : (State.follow before t).AttentionSound :=
  ⟨fun p => by rw [State.top_follow, State.offer_follow]; rfl, h.of_sources rfl⟩

/-- A happening that leaves the lines and the offer sets as they are. -/
theorem of_offered (h : s.AttentionSound) (ha : ∀ p, (t.offer p).attention = (s.offer p).attention)
    (ho : t.offered = s.offered) (hu : t.UnboundDisabled) : t.AttentionSound := by
  refine ⟨fun p => ?_, hu⟩
  rw [ha, h.1 p, Bool.eq_iff_iff, State.top_isSome_iff, State.top_isSome_iff, ho]

/-- A happening that leaves the offers, the records and the claim lists as they are. -/
theorem of_eq (h : s.AttentionSound) (ho : t.offers = s.offers) (hs : t.sources = s.sources) (hc : t.claims = s.claims) :
    t.AttentionSound := by
  have same : ∀ p, t.offer p = s.offer p := fun p => by rw [State.offer, ho]; rfl
  exact h.of_offered (fun p => by rw [same]) (State.offered_congr hs hc fun p => by rw [same]) (h.unbound.of_sources hs)

/-- A record written that stays a candidate for the same ports at the same level. -/
theorem setSource (h : s.AttentionSound) {i : SourceNo} {r : SourceRec}
    (hc : r.candidateFor = (s.source i).candidateFor) (hp : r.priority = (s.source i).priority)
    (hr : r.binder = none → r.enabled = false) : (s.setSource i r).AttentionSound :=
  h.of_offered (fun _ => rfl) (State.offered_setSource hc hp) (h.unbound.setSource hr)

/-- A record written in a field that enters neither the offer sets nor the binding. -/
theorem writeField (h : s.AttentionSound) {i : SourceNo} {r : SourceRec}
    (hc : r.candidateFor = (s.source i).candidateFor) (hp : r.priority = (s.source i).priority)
    (hb : r.binder = (s.source i).binder) (he : r.enabled = (s.source i).enabled) : (s.setSource i r).AttentionSound :=
  h.setSource hc hp (hb ▸ he ▸ h.unbound i)

/-- A record that is no candidate written over by a disabled one, which is none either. -/
theorem writeDisabled (h : s.AttentionSound) {i : SourceNo} {r : SourceRec}
    (hc : ∀ p, (s.source i).candidateFor p = false) (hp : r.priority = (s.source i).priority) (hr : r.enabled = false) :
    (s.setSource i r).AttentionSound :=
  h.setSource (funext fun p => (SourceRec.not_candidateFor_of_disabled hr p).trans (hc p).symm) hp fun _ => hr

theorem setOffer (h : s.AttentionSound) {p : Port} {o : OfferPort} (ha : o.attention = (s.offer p).attention)
    (ht : o.threshold = (s.offer p).threshold) : (s.setOffer p o).AttentionSound := by
  refine h.of_offered (fun q => ?_) (funext fun q => State.offered_setOffer o fun _ => ht) h.unbound
  rw [State.offer_setOffer]
  split <;> [(rename_i hq; subst hq; exact ha); rfl]

/-- The cleared port's line is set by its new top; the other ports keep their thresholds, so their tops. -/
theorem clearOffers (h : s.AttentionSound) (p : Port) : (s.clearOffers p).AttentionSound := by
  refine ⟨fun q => ?_, h.unbound⟩
  rw [Bool.eq_iff_iff, State.top_isSome_iff, State.clearOffers, State.offer_setOffer]
  split
  · rename_i hq
    subst hq
    rw [State.offered_setOffer _ fun _ => by simp, State.top_isSome_iff]
  · rename_i hq
    rw [State.offered_setOffer _ fun hp => absurd hp.symm hq, State.offered_setOffer _ fun hp => absurd hp.symm hq,
      State.offer_setOffer, if_neg hq, h.1 q, State.top_isSome_iff]

theorem takeClaim (h : s.AttentionSound) (p : Port) (i : SourceNo) : (s.takeClaim p i).AttentionSound :=
  .follow s (h.unbound.change (i := i) (r := { s.source i with state := .claimed p, count := 0 })
    (fun j => by simp) (h.unbound i))

theorem completeClaim (h : s.AttentionSound) (p : Port) (i : SourceNo) : (s.completeClaim p i).AttentionSound := by
  refine .follow s ?_
  have ended : ((s.removeEntry p i).stopTimer i).UnboundDisabled := h.unbound
  split
  · split
    · exact ended.makePending _
    · split <;> [exact ended.makePending _; exact ended.makeQuiet]
  · exact ended.makeQuiet

theorem bindSource (h : s.AttentionSound) (p : Port) {i : SourceNo} (hn : (s.source i).binder = none) :
    (s.bindSource p i).AttentionSound :=
  have disabled := h.unbound i hn
  h.writeDisabled (SourceRec.not_candidateFor_of_disabled disabled) rfl disabled

theorem unbindSource (h : s.AttentionSound) (i : SourceNo) : (s.unbindSource i).AttentionSound :=
  .follow s (h.unbound.change (i := i) (r := SourceRec.default) (fun j => by simp) fun _ => rfl)

theorem setBorrower (h : s.AttentionSound) (i : SourceNo) (q : Option Port) : (s.setBorrower i q).AttentionSound :=
  .follow s (h.unbound.setSource (h.unbound i))

theorem returnSource (h : s.AttentionSound) (p : Port) (i : SourceNo) : (s.returnSource p i).AttentionSound :=
  (h.setBorrower i none).of_eq (State.offers_writeIncident _ _ _ _ _ _) (State.sources_writeIncident _ _ _ _ _ _)
    (State.claims_writeIncident _ _ _ _ _ _)

theorem enableSource (h : s.AttentionSound) {i : SourceNo} (hb : (s.source i).binder ≠ none) :
    (s.enableSource i).AttentionSound := by
  unfold State.enableSource
  dsimp only
  split
  · exact h
  · have enabled : (s.setSource i { s.source i with enabled := true }).UnboundDisabled :=
      h.unbound.setSource (absurd · hb)
    refine .follow s ?_
    split <;> [exact enabled.takeEvent; exact enabled]

/-- A QUIET or CLAIMED source is offered to no port; another is withdrawn, and the offers follow. -/
theorem disableSource (h : s.AttentionSound) (i : SourceNo) : (s.disableSource i).AttentionSound := by
  cases he : (s.source i).enabled with
  | false => rwa [State.disableSource_of_disabled he]
  | true =>
    have withdrawn : (State.follow s (s.withdrawn i)).AttentionSound :=
      .follow s (h.unbound.change (s.source_withdrawn i) fun _ => rfl)
    cases hs : (s.source i).state with
    | quiet =>
      rw [State.disableSource_of_quiet he hs]
      exact h.writeDisabled (SourceRec.not_candidateFor_of_not_waiting (by simp [hs]) (by simp [hs])) rfl rfl
    | pending => rwa [State.disableSource_of_waiting he (.inl hs)]
    | escalated => rwa [State.disableSource_of_waiting he (.inr hs)]
    | claimed q =>
      rw [State.disableSource_of_claimed he hs]
      exact h.writeDisabled (SourceRec.not_candidateFor_of_not_waiting (by simp [hs]) (by simp [hs])) rfl rfl

theorem writeQualify (h : s.AttentionSound) (i : SourceNo) (v : Fin 16) : (s.writeQualify i v).AttentionSound :=
  (h.writeField (i := i) (r := { s.source i with qualify := v }) rfl rfl rfl rfl).of_eq
    (State.offers_requalifyLine _ _ _) (State.sources_requalifyLine _ _ _) (State.claims_requalifyLine _ _ _)

theorem takeChange (h : s.AttentionSound) (n : LineNo) (e : Edge) (rest : List Edge) :
    (s.takeChange n e rest).AttentionSound := by
  unfold State.takeChange
  dsimp only
  split
  · have taken : (s.setLine n { s.line n with qualified := e.level, reports := rest }).UnboundDisabled := h.unbound
    exact .follow s (taken.takeEvent.of_sources (State.sources_reportWake _))
  · exact h.of_eq rfl rfl rfl

theorem escalate (h : s.AttentionSound) (i : SourceNo) (time : Time) : (s.escalate i time).AttentionSound :=
  .follow s (h.unbound.change (i := i) (r := { s.source i with state := .escalated }) (fun j => by simp) (h.unbound i))

theorem retract (h : s.AttentionSound) (p : Port) (i : SourceNo) (time : Time) : (s.retract p i time).AttentionSound := by
  have stopped : (((s.markLost p i).stopTimer i).writeIncident .retracted i (some p) 0#8 time).UnboundDisabled :=
    h.unbound.of_sources (by simp)
  unfold State.retract
  refine .follow s ?_
  dsimp only
  generalize ((s.markLost p i).stopTimer i).writeIncident .retracted i (some p) 0#8 time = t at stopped ⊢
  split
  · have escalated : (t.setSource i { t.source i with state := .escalated }).UnboundDisabled :=
      stopped.setSource (stopped i)
    exact escalated.raiseCount time
  · exact stopped.makeQuiet

end State.AttentionSound

/-- A clearing releases every line and leaves no source enabled. -/
theorem State.attentionSound_clear (s : State) (t : Settings) (power : PowerState) : (s.clear t power).AttentionSound := by
  have record : ∀ i, (s.clear t power).source i = SourceRec.default :=
    fun i => by simp [State.clear, State.source, Table.at]
  have offer : ∀ p, (s.clear t power).offer p = OfferPort.default :=
    fun p => by simp [State.clear, State.offer, Table.at]
  refine ⟨fun p => ?_, fun i _ => by rw [record]; rfl⟩
  have absent : (s.clear t power).top p = none := State.top_eq_none_iff.2 fun i => by
    rw [State.offered, record, SourceRec.not_candidateFor_of_disabled rfl, Bool.false_and]
  rw [offer, absent]
  rfl

/-! ## Every operation, every step -/

/-- Every operation of the commands keeps the attention lines sound. -/
theorem keptByOperations_attentionSound : KeptByOperations State.AttentionSound where
  pending _ _ h := h.of_eq rfl rfl rfl
  setLink _ _ _ h _ := h.of_eq rfl rfl rfl
  setLine _ _ _ h _ := h.of_eq rfl rfl rfl
  top _ _ h _ := h.setOffer rfl rfl
  threshold s _ _ h _ := .follow s h.unbound
  claim _ p i h _ _ _ := h.takeClaim p i
  complete _ p i _ h _ _ _ := h.completeClaim p i
  lost s p i h _ := h.of_offered (fun _ => rfl) (s.offered_dropLost p i) h.unbound
  defer s p i _ h _ _ _ := .follow s (State.UnboundDisabled.returnClaim (s := s.removeEntry p i) h.unbound)
  post s _ h _ _ := .follow s h.unbound.takeEvent
  bind _ p _ h _ hn := h.bindSource p hn
  unbind _ i h _ _ := h.unbindSource i
  lend _ _ q i h _ _ _ := h.setBorrower i (some q)
  recallLoan _ i h _ := h.setBorrower i none
  returnLoan _ p i h _ := h.returnSource p i
  priority s _ i _ h _ _ := .follow s (h.unbound.setSource (h.unbound i))
  group _ _ _ _ h _ _ := h.writeField rfl rfl rfl rfl
  trigger _ _ _ _ h _ _ _ := h.writeField rfl rfl rfl rfl
  qualify _ _ i v h _ _ _ := h.writeQualify i v
  waitLimit _ _ _ _ h _ _ := h.writeField rfl rfl rfl rfl
  serviceLimit _ _ _ _ h _ _ := h.writeField rfl rfl rfl rfl
  fallback s _ i _ h _ _ := .follow s (h.unbound.setSource (h.unbound i))
  posters _ _ _ _ h _ _ _ := h.writeField rfl rfl rfl rfl
  enable _ _ _ h _ hb := h.enableSource (by simp [hb])
  disable _ _ i h _ _ := h.disableSource i
  readIncident _ _ _ _ h _ _ := h.of_eq rfl rfl rfl
  emptyQueue _ _ h _ := h.of_eq rfl rfl rfl
  clearOffers _ p h _ := h.clearOffers p
  clearTable s p h _ := .follow s (h.unbound.endLoans_releaseClaims p)
  settings _ _ h _ _ := h.of_eq rfl rfl rfl
  watch _ h _ _ _ := h.of_eq rfl rfl rfl
  startWaking _ h _ := h.of_eq rfl rfl rfl
  wakingEnd _ h _ := h.of_eq rfl rfl rfl
  clear s t power _ _ _ := s.attentionSound_clear t power
  pins _ _ _ h := h.of_eq rfl rfl rfl
  hold _ _ h _ := h.of_eq rfl rfl rfl
  takeChange _ n e rest h _ := h.takeChange n e rest
  wakeReports _ _ h := h.of_eq rfl rfl rfl
  deliver _ _ _ h _ := h.of_eq rfl rfl rfl
  deliverReached _ h := h.of_eq rfl rfl rfl
  stopTimer _ _ h := h.of_eq rfl rfl rfl
  escalate _ i time h _ _ := h.escalate i time
  retract _ p i time h _ _ := h.retract p i time
  enterActive _ h _ _ := h.of_eq rfl rfl rfl
  enterFailed _ _ h _ _ := h.of_eq rfl rfl rfl
  counters _ _ _ _ h _ := h.of_eq rfl rfl rfl

/-- Settles O58: the lines are sound after every step, since every operation of the commands keeps them so. -/
theorem stepKeepsTheAttentionLines : Obligations.StepKeepsTheAttentionLines :=
  fun _ _ h hs => keptByOperations_attentionSound.step h hs

end Sys2Proof.Machine

/-! PROOF. What each happening does to the claim lists, and the two invariants that every step keeps of them: their
agreement with the CLAIMED sources (O55) and the strict order of the HELD levels (O56). A claim is added by `takeClaim`
alone; it ends by COMPLETE, DEFER, a SERVICE expiry or a port clear. -/

namespace Sys2Proof.Machine

/-! ## Claim lists after a happening -/

/-- An entry after the SERVICE expiry of source `i` (R115). -/
def ClaimEntry.lose (i : SourceNo) (e : ClaimEntry) : ClaimEntry :=
  if e.names i && e.isHeld then { e with status := .retracted } else e

@[simp] theorem ClaimEntry.source_lose (i : SourceNo) (e : ClaimEntry) : (e.lose i).source = e.source := by
  unfold ClaimEntry.lose
  split <;> rfl

theorem ClaimEntry.names_iff (e : ClaimEntry) (i : SourceNo) : e.names i = true ↔ e.source = i := by
  simp [ClaimEntry.names]

/-- The entry of the lost claim is RETRACTED, every other entry as it was. -/
theorem ClaimEntry.lose_held_iff (i : SourceNo) (e : ClaimEntry) :
    (e.lose i).status = .held ↔ e.status = .held ∧ e.source ≠ i := by
  unfold ClaimEntry.lose
  split <;> simp_all [ClaimEntry.names_iff, ClaimEntry.isHeld_iff]
  tauto

section

variable (s : State) (p q : Port) (i : SourceNo)

theorem State.claimList_takeClaim :
    (s.takeClaim p i).claimList q =
      if p = q then s.listWithoutLost p i ++ [⟨i, s.level i, .held, s.partTime⟩] else s.claimList q := by
  simp [State.takeClaim]

theorem State.claims_completeClaim : (s.completeClaim p i).claims = (s.removeEntry p i).claims := by
  unfold State.completeClaim
  dsimp only
  rw [State.claims_follow]
  split_ifs <;> simp

theorem State.claims_deferClaim : (s.deferClaim p i).claims = (s.removeEntry p i).claims := by
  simp [State.deferClaim]

theorem State.claimList_removeEntry :
    (s.removeEntry p i).claimList q = if p = q then (s.claimList p).filter (!·.names i) else s.claimList q :=
  State.claimList_setClaimList _ _ _ _

/-- The lists after a claim has been given up with its entry, by COMPLETE or DEFER. -/
theorem State.claimList_of_removed {t : State} (h : t.claims = (s.removeEntry p i).claims) :
    t.claimList q = if p = q then (s.claimList p).filter (!·.names i) else s.claimList q := by
  rw [State.claimList, h]
  exact s.claimList_removeEntry p q i

theorem State.claimList_dropLost :
    (s.dropLost p i).claimList q = if p = q then s.listWithoutLost p i else s.claimList q :=
  State.claimList_setClaimList _ _ _ _

theorem State.claims_retract (time : Time) : (s.retract p i time).claims = (s.markLost p i).claims := by
  unfold State.retract
  dsimp only
  rw [State.claims_follow]
  split <;> simp

theorem State.claimList_markLost :
    (s.markLost p i).claimList q = if p = q then (s.claimList p).map (ClaimEntry.lose i) else s.claimList q :=
  State.claimList_setClaimList _ _ _ _

/-- A port clear empties the list of its port, whatever it names. -/
theorem State.claims_clearTable : (s.clearTable p).claims = s.claims.put p [] := by
  have released : (s.releaseClaims p).claims = s.claims.put p [] :=
    congrArg (Table.put · p []) (List.foldlRecOn (motive := fun t : State => t.claims = s.claims) _
      (State.releaseEntry p) rfl fun t ht e _ => (State.claims_releaseEntry t p e).trans ht)
  unfold State.clearTable State.endLoans
  generalize List.finRange 96 = l
  exact List.foldlRecOn (motive := fun t : State => t.claims = s.claims.put p []) l (State.endLoan p) released
    fun t ht i _ => (State.claims_endLoan t p i).trans ht

theorem State.claimList_clearTable : (s.clearTable p).claimList q = if p = q then [] else s.claimList q := by
  rw [State.claimList, State.claims_clearTable, Table.at_put]
  rfl

theorem State.claimList_clear (t : Settings) (power : PowerState) : (s.clear t power).claimList q = [] := by
  simp [State.clear, State.claimList, Table.at]

/-! ## Records after a claim has been taken or has ended -/

theorem State.source_takeClaim (j : SourceNo) :
    (s.takeClaim p i).source j =
      if i = j then { s.source i with state := .claimed p, count := 0 } else s.source j := by
  simp [State.takeClaim]

/-- The four outcomes of R91, the last two of which leave the source QUIET. -/
theorem State.source_completeClaim (j : SourceNo) :
    (s.completeClaim p i).source j =
      if i = j then
        (if (s.source i).enabled = true ∧ 0 < (s.source i).count then { s.source i with state := .pending }
        else if (s.source i).enabled = true ∧ s.lineActive i = true then
          { s.source i with state := .pending, count := 1 }
        else { s.source i with state := .quiet, count := 0 })
      else s.source j := by
  have line : ((s.removeEntry p i).stopTimer i).lineActive i = s.lineActive i := rfl
  unfold State.completeClaim
  dsimp only
  rw [State.source_follow, line]
  by_cases hj : i = j
  · subst hj
    split_ifs <;> simp_all [State.source_makePending, State.source_makeQuiet]
  · split_ifs <;> simp [State.source_makePending, State.source_makeQuiet, hj]

theorem State.source_retract (time : Time) (j : SourceNo) :
    (s.retract p i time).source j =
      if i = j then
        (if (s.source i).enabled then { s.source i with state := .escalated, count := raisedCount (s.source i).count }
        else { s.source i with state := .quiet, count := 0 })
      else s.source j := by
  unfold State.retract
  dsimp only
  rw [State.source_follow]
  by_cases hj : i = j
  · subst hj
    split_ifs <;> simp_all [State.source_raiseCount, State.source_makeQuiet]
  · split_ifs <;> simp [State.source_raiseCount, State.source_makeQuiet, hj]

end

/-! ## Levels at claim (R83) -/

/-- The levels at claim of the HELD entries of a list, in claim order. -/
def heldLevels (l : List ClaimEntry) : List Nat := (l.filter (·.isHeld)).map (·.level)

theorem heldLevels_append (l l' : List ClaimEntry) : heldLevels (l ++ l') = heldLevels l ++ heldLevels l' := by
  simp [heldLevels]

theorem heldLevels_sublist {l l' : List ClaimEntry} (h : l.Sublist l') : (heldLevels l).Sublist (heldLevels l') :=
  (h.filter _).map _

theorem heldLevels_lose_sublist (i : SourceNo) (l : List ClaimEntry) :
    (heldLevels (l.map (ClaimEntry.lose i))).Sublist (heldLevels l) := by
  induction l with
  | nil => exact .refl _
  | cons e l ih =>
    have lost : (heldLevels [e.lose i]).Sublist (heldLevels [e]) := by
      unfold ClaimEntry.lose
      split <;> [exact List.nil_sublist _; exact .refl _]
    rw [List.map_cons, ← List.singleton_append, ← List.singleton_append (l := l), heldLevels_append, heldLevels_append]
    exact lost.append ih

/-- Every HELD level of a port's list is above the levels its offer set admits (R69, R70). -/
theorem State.level_lt_of_offered {s : State} {p : Port} {i : SourceNo} (h : s.offered p i = true) :
    ∀ n ∈ heldLevels (s.claimList p), s.level i < n := by
  intro n hn
  obtain ⟨e, he, rfl⟩ := List.mem_map.1 hn
  obtain ⟨hmem, hheld⟩ := List.mem_filter.1 he
  exact (State.offered_iff.1 h).2.2.trans_le (runningLevelOf_le hmem hheld)

namespace State.ClaimsNest

variable {s t : State} (h : s.ClaimsNest)

include h

/-- HELD entries that go leave the others in order. -/
theorem of_sublists (hl : ∀ q, (heldLevels (t.claimList q)).Sublist (heldLevels (s.claimList q))) : t.ClaimsNest :=
  fun q => List.Pairwise.sublist (hl q) (h q)

theorem of_eq (hc : t.claims = s.claims) : t.ClaimsNest :=
  h.of_sublists fun q => by rw [State.claimList, hc]; exact .refl _

/-- One list is replaced by one with fewer HELD entries, in the same order. -/
theorem of_list {p : Port} {l : List ClaimEntry} (ht : ∀ q, t.claimList q = if p = q then l else s.claimList q)
    (hl : (heldLevels l).Sublist (heldLevels (s.claimList p))) : t.ClaimsNest := by
  refine h.of_sublists fun q => ?_
  rw [ht]
  split <;> [(rename_i hq; subst hq; exact hl); exact .refl _]

theorem removeEntry (p : Port) (i : SourceNo) : (s.removeEntry p i).ClaimsNest :=
  h.of_list (s.claimList_removeEntry p · i) (heldLevels_sublist List.filter_sublist)

theorem dropLost (p : Port) (i : SourceNo) : (s.dropLost p i).ClaimsNest :=
  h.of_list (s.claimList_dropLost p · i) (heldLevels_sublist List.filter_sublist)

theorem markLost (p : Port) (i : SourceNo) : (s.markLost p i).ClaimsNest :=
  h.of_list (s.claimList_markLost p · i) (heldLevels_lose_sublist i _)

theorem clearTable (p : Port) : (s.clearTable p).ClaimsNest :=
  h.of_list (s.claimList_clearTable p) (List.nil_sublist _)

/-- The claimed source is in the offer set, so its level is below every HELD one. -/
theorem takeClaim {p : Port} {i : SourceNo} (ho : s.offered p i = true) : (s.takeClaim p i).ClaimsNest := by
  intro q
  rw [State.claimList_takeClaim]
  split
  · rename_i hq
    subst hq
    have kept : (heldLevels (s.listWithoutLost p i)).Sublist (heldLevels (s.claimList p)) :=
      heldLevels_sublist List.filter_sublist
    change (heldLevels _).Pairwise _
    rw [heldLevels_append, List.pairwise_append]
    refine ⟨List.Pairwise.sublist kept (h p), List.pairwise_singleton _ _, fun n hn m hm => ?_⟩
    rw [List.mem_singleton.1 hm]
    exact State.level_lt_of_offered ho n (kept.subset hn)
  · exact h q

end State.ClaimsNest

/-- Every operation of the commands keeps the HELD levels strictly decreasing. -/
theorem keptByOperations_claimsNest : KeptByOperations State.ClaimsNest where
  pending _ _ h := h
  setLink _ _ _ h _ := h
  setLine _ _ _ h _ := h
  top _ _ h _ := h
  threshold _ _ _ h _ := h
  claim _ _ _ h _ ho _ := h.takeClaim ho
  complete _ p i _ h _ _ _ := (h.removeEntry p i).of_eq (State.claims_completeClaim _ _ _)
  lost _ p i h _ := h.dropLost p i
  defer _ p i _ h _ _ _ := (h.removeEntry p i).of_eq (State.claims_deferClaim _ _ _)
  post _ _ h _ _ := h.of_eq (by simp)
  bind _ _ _ h _ _ := h
  unbind _ _ h _ _ := h.of_eq (by simp)
  lend _ _ _ _ h _ _ _ := h
  recallLoan _ _ h _ := h
  returnLoan _ _ _ h _ := h.of_eq (by simp)
  priority _ _ _ _ h _ _ := h
  group _ _ _ _ h _ _ := h
  trigger _ _ _ _ h _ _ _ := h
  qualify _ _ _ _ h _ _ _ := h.of_eq (by simp [State.writeQualify])
  waitLimit _ _ _ _ h _ _ := h
  serviceLimit _ _ _ _ h _ _ := h
  fallback _ _ _ _ h _ _ := h
  posters _ _ _ _ h _ _ _ := h
  enable _ _ _ h _ _ := h.of_eq (by simp)
  disable _ _ _ h _ _ := h.of_eq (by simp)
  readIncident _ _ _ _ h _ _ := h
  emptyQueue _ _ h _ := h
  clearOffers _ _ h _ := h
  clearTable _ p h _ := h.clearTable p
  settings _ _ h _ _ := h
  watch _ h _ _ _ := h
  startWaking _ h _ := h
  wakingEnd _ h _ := h
  clear s t power _ _ _ q := by rw [State.claimList_clear]; exact .nil
  pins _ _ _ h := h
  hold _ _ h _ := h
  takeChange _ _ _ _ h _ := h.of_eq (by simp)
  wakeReports _ _ h := h
  deliver _ _ _ h _ := h
  deliverReached _ h := h
  stopTimer _ _ h := h
  escalate _ _ _ h _ _ := h.of_eq (by simp)
  retract _ p i time h _ _ := (h.markLost p i).of_eq (State.claims_retract _ _ _ time)
  enterActive _ h _ _ := h
  enterFailed _ _ h _ _ := h
  counters _ _ _ _ h _ := h

/-- Settles O56: a claim is appended below every HELD level of its list, and no other operation adds a HELD entry. -/
theorem stepKeepsTheClaimsNested : Obligations.StepKeepsTheClaimsNested :=
  fun _ _ h hs => keptByOperations_claimsNest.step h hs

end Sys2Proof.Machine

/-! PROOF. Every step keeps the claim lists within capacity, without a source twice and in agreement with the CLAIMED
sources (O55). A happening either leaves the lists and every claimant as they are, or takes one claim, or ends one, or
clears a port. -/

namespace Sys2Proof.Machine

/-! ## HELD entries of a list -/

/-- Whether a HELD entry of the list names the source. -/
def Holds (l : List ClaimEntry) (i : SourceNo) : Prop := ∃ e ∈ l, e.source = i ∧ e.status = .held

theorem holds_iff_isHeld {l : List ClaimEntry} {i : SourceNo} :
    Holds l i ↔ ∃ e ∈ l, e.source = i ∧ e.isHeld = true := by
  simp [Holds, ClaimEntry.isHeld_iff]

theorem not_holds_nil (i : SourceNo) : ¬Holds [] i := by simp [Holds]

theorem holds_filter_names {l : List ClaimEntry} {i j : SourceNo} :
    Holds (l.filter (!·.names i)) j ↔ Holds l j ∧ j ≠ i := by
  constructor
  · rintro ⟨e, he, rfl, hh⟩
    obtain ⟨hmem, hn⟩ := List.mem_filter.1 he
    exact ⟨⟨e, hmem, rfl, hh⟩, by simpa [ClaimEntry.names] using hn⟩
  · rintro ⟨⟨e, he, rfl, hh⟩, hne⟩
    exact ⟨e, List.mem_filter.2 ⟨he, by simpa [ClaimEntry.names] using hne⟩, rfl, hh⟩

theorem holds_map_lose {l : List ClaimEntry} {i j : SourceNo} :
    Holds (l.map (ClaimEntry.lose i)) j ↔ Holds l j ∧ j ≠ i := by
  constructor
  · rintro ⟨_, he, rfl, hh⟩
    obtain ⟨e, hmem, rfl⟩ := List.mem_map.1 he
    rw [ClaimEntry.lose_held_iff] at hh
    rw [ClaimEntry.source_lose]
    exact ⟨⟨e, hmem, rfl, hh.1⟩, hh.2⟩
  · rintro ⟨⟨e, he, rfl, hh⟩, hne⟩
    exact ⟨e.lose i, List.mem_map_of_mem he, e.source_lose i, (e.lose_held_iff i).2 ⟨hh, hne⟩⟩

theorem map_source_lose (i : SourceNo) (l : List ClaimEntry) :
    (l.map (ClaimEntry.lose i)).map (·.source) = l.map (·.source) := by
  simp

/-- An entry stays in the list where it is HELD or names another source. -/
theorem State.mem_listWithoutLost {s : State} {p : Port} {i : SourceNo} {e : ClaimEntry} :
    e ∈ s.listWithoutLost p i ↔ e ∈ s.claimList p ∧ (e.source = i → e.status = .held) := by
  rw [State.listWithoutLost, List.mem_filter, ← e.names_iff, ← e.isHeld_iff]
  cases e.names i <;> simp

/-- A RETRACTED entry removed is no HELD one. -/
theorem State.holds_listWithoutLost {s : State} {p : Port} {i j : SourceNo} :
    Holds (s.listWithoutLost p i) j ↔ Holds (s.claimList p) j := by
  constructor
  · rintro ⟨e, he, hj⟩
    exact ⟨e, (State.mem_listWithoutLost.1 he).1, hj⟩
  · rintro ⟨e, he, hj, hh⟩
    exact ⟨e, State.mem_listWithoutLost.2 ⟨he, fun _ => hh⟩, hj, hh⟩

theorem holds_append_claim {l : List ClaimEntry} {i j : SourceNo} {n : Nat} {now : Time} :
    Holds (l ++ [⟨i, n, .held, now⟩]) j ↔ Holds l j ∨ i = j := by
  simp [Holds, or_and_right, exists_or]

/-- The entry found names the source it was sought by. -/
theorem State.source_of_entryOf {s : State} {p : Port} {i : SourceNo} {e : ClaimEntry} (he : s.entryOf p i = some e) :
    e.source = i := (e.names_iff i).1 (List.find?_some (p := fun e : ClaimEntry => e.names i) he)

theorem State.holds_of_entryOf {s : State} {p : Port} {i : SourceNo} {e : ClaimEntry} (he : s.entryOf p i = some e)
    (hh : e.isHeld = true) : Holds (s.claimList p) i :=
  ⟨e, List.mem_of_find?_eq_some he, State.source_of_entryOf he, e.isHeld_iff.1 hh⟩

/-- An offered source is PENDING or ESCALATED (R70). -/
theorem State.not_claimed_of_offered {s : State} {p q : Port} {i : SourceNo} (h : s.offered p i = true) :
    (s.source i).state ≠ .claimed q := by
  have waiting := ((SourceRec.candidateFor_iff _ _).1 (State.offered_iff.1 h).1).2.1
  rintro hc
  simp [hc] at waiting

theorem SrcState.claimant_eq_some_iff {x : SrcState} {p : Port} : x.claimant = some p ↔ x = .claimed p := by
  cases x <;> simp [SrcState.claimant]

/-! ## Sound claim lists -/

namespace State.ClaimsSound

variable {s t : State} (h : s.ClaimsSound) {p : Port} {i : SourceNo}

include h

theorem claimed_iff : (s.source i).state = .claimed p ↔ Holds (s.claimList p) i := h.held_iff p i

/-- A happening that leaves the lists and every claimant as they are. -/
theorem of_claimants (hc : t.claims = s.claims)
    (hs : ∀ j, (t.source j).state.claimant = (s.source j).state.claimant) : t.ClaimsSound := by
  have lists : ∀ q, t.claimList q = s.claimList q := fun q => by rw [State.claimList, hc]; rfl
  refine ⟨fun q => ?_, fun q => ?_, fun q j => ?_⟩ <;> rw [lists]
  · exact h.capacity q
  · exact h.once q
  · rw [← SrcState.claimant_eq_some_iff, hs, SrcState.claimant_eq_some_iff]
    exact h.held_iff q j

theorem of_eq (hc : t.claims = s.claims) (hs : t.sources = s.sources) : t.ClaimsSound :=
  h.of_claimants hc fun j => by rw [State.source, hs]; rfl

/-- One record is replaced by one with the same claimant. -/
theorem change {r : SourceRec} (hc : t.claims = s.claims) (ht : ∀ j, t.source j = if i = j then r else s.source j)
    (hr : r.state.claimant = (s.source i).state.claimant) : t.ClaimsSound := by
  refine h.of_claimants hc fun j => ?_
  rw [ht]
  split <;> [(rename_i hj; rw [← hj, hr]); rfl]

theorem setSource {r : SourceRec} (hr : r.state.claimant = (s.source i).state.claimant) :
    (s.setSource i r).ClaimsSound := h.change rfl (s.source_setSource i r) hr

theorem takeEvent : (s.takeEvent i).ClaimsSound := by
  unfold State.takeEvent
  split
  · rename_i hq
    exact h.change (State.claims_makePending _ _ _) (s.source_makePending i · 1) (by rw [hq]; rfl)
  all_goals exact h.change (State.claims_raiseCount _ _ _) (s.source_raiseCount i · _) rfl

theorem enableSource : (s.enableSource i).ClaimsSound := by
  unfold State.enableSource
  dsimp only
  split
  · exact h
  · have enabled : (s.setSource i { s.source i with enabled := true }).ClaimsSound := h.setSource rfl
    refine State.ClaimsSound.of_eq (s := ite _ _ _) ?_ (State.claims_follow _ _) (State.sources_follow _ _)
    split <;> [exact enabled.takeEvent; exact enabled]

/-- A CLAIMED source stays CLAIMED as it is disabled (R22); another has no claimant before or after. -/
theorem disableSource : (s.disableSource i).ClaimsSound := by
  cases he : (s.source i).enabled with
  | false => rwa [State.disableSource_of_disabled he]
  | true =>
    have withdrawn (hn : (s.source i).state.claimant = none) : (State.follow s (s.withdrawn i)).ClaimsSound :=
      (h.change (s.claims_withdrawn i) (s.source_withdrawn i) (by rw [hn]; rfl)).of_eq (State.claims_follow _ _)
        (State.sources_follow _ _)
    cases hs : (s.source i).state with
    | quiet => rw [State.disableSource_of_quiet he hs]; exact h.setSource rfl
    | pending => rw [State.disableSource_of_waiting he (.inl hs)]; exact withdrawn (by rw [hs]; rfl)
    | escalated => rw [State.disableSource_of_waiting he (.inr hs)]; exact withdrawn (by rw [hs]; rfl)
    | claimed q => rw [State.disableSource_of_claimed he hs]; exact h.setSource rfl

theorem unbindSource (hn : (s.source i).state.claimant = none) : (s.unbindSource i).ClaimsSound := by
  rw [State.unbindSource_eq]
  exact (h.change (s.claims_unbound i) (s.source_unbound i) (by rw [hn]; rfl)).of_eq (State.claims_follow _ _)
    (State.sources_follow _ _)

theorem setBorrower (q : Option Port) : (s.setBorrower i q).ClaimsSound :=
  h.change (i := i) (r := { s.source i with borrower := q }) rfl (s.source_setSource i _) rfl

theorem returnSource : (s.returnSource p i).ClaimsSound :=
  (h.setBorrower none).of_eq (State.claims_writeIncident _ _ _ _ _ _) (State.sources_writeIncident _ _ _ _ _ _)

theorem writeQualify (v : Fin 16) : (s.writeQualify i v).ClaimsSound := by
  have written : (s.setSource i { s.source i with qualify := v }).ClaimsSound := h.setSource rfl
  exact written.of_eq (State.claims_requalifyLine _ _ _) (State.sources_requalifyLine _ _ _)

theorem takeChange (n : LineNo) (e : Edge) (rest : List Edge) : (s.takeChange n e rest).ClaimsSound := by
  have qualified : (s.setLine n { s.line n with qualified := e.level, reports := rest }).ClaimsSound := h.of_eq rfl rfl
  unfold State.takeChange
  dsimp only
  split
  · exact (qualified.takeEvent (i := sourceOf n)).of_eq (by simp) (by simp)
  · exact qualified

theorem escalate (hs : (s.source i).state = .pending) (time : Time) : (s.escalate i time).ClaimsSound :=
  h.change (i := i) (r := { s.source i with state := .escalated }) (State.claims_escalate _ _ _)
    (fun j => by simp [State.escalate]) (by rw [hs]; rfl)

/-- A RETRACTED entry of the list goes. -/
theorem dropLost : (s.dropLost p i).ClaimsSound := by
  have kept : (s.listWithoutLost p i).Sublist (s.claimList p) := List.filter_sublist
  refine ⟨fun q => ?_, fun q => ?_, fun q j => ?_⟩
  · rw [State.claimList_dropLost]
    split <;> [exact kept.length_le.trans (h.capacity p); exact h.capacity q]
  · rw [State.claimList_dropLost]
    split <;> [exact (kept.map _).nodup (h.once p); exact h.once q]
  · rw [State.source_dropLost, h.claimed_iff, State.claimList_dropLost]
    split <;> [(rename_i hq; subst hq; exact State.holds_listWithoutLost.symm); exact Iff.rfl]

/-- The claim of port `p` on source `i` ends: its HELD entry is gone and the source has no claimant. -/
theorem ended (hi : (s.source i).state = .claimed p)
    (hm : ((t.claimList p).map (·.source)).Sublist ((s.claimList p).map (·.source)))
    (hh : ∀ j, Holds (t.claimList p) j ↔ Holds (s.claimList p) j ∧ j ≠ i)
    (hl : ∀ q, q ≠ p → t.claimList q = s.claimList q) (hs : ∀ j, i ≠ j → t.source j = s.source j)
    (ht : (t.source i).state.claimant = none) : t.ClaimsSound := by
  refine ⟨fun q => ?_, fun q => ?_, fun q j => ?_⟩
  · by_cases hq : q = p
    · subst hq; simpa using hm.length_le.trans (by simpa using h.capacity q)
    · rw [hl q hq]; exact h.capacity q
  · by_cases hq : q = p
    · subst hq; exact hm.nodup (h.once q)
    · rw [hl q hq]; exact h.once q
  · have entry : Holds (t.claimList q) j ↔ Holds (s.claimList q) j ∧ j ≠ i := by
      by_cases hq : q = p
      · subst hq; exact hh j
      · rw [hl q hq]
        refine ⟨fun hj => ⟨hj, ?_⟩, And.left⟩
        rintro rfl
        rw [← h.claimed_iff, hi] at hj
        exact hq (SrcState.claimed.inj hj).symm
    change _ ↔ Holds _ _
    rw [entry, ← SrcState.claimant_eq_some_iff]
    by_cases hj : i = j
    · subst hj; simp [ht]
    · rw [hs j hj, SrcState.claimant_eq_some_iff, h.claimed_iff]
      exact (and_iff_left (Ne.symm hj)).symm

/-- A claim given up with its entry removed, by COMPLETE or DEFER. -/
theorem removed (hi : Holds (s.claimList p) i) (hc : t.claims = (s.removeEntry p i).claims)
    (hs : ∀ j, i ≠ j → t.source j = s.source j) (ht : (t.source i).state.claimant = none) : t.ClaimsSound := by
  refine h.ended (h.claimed_iff.2 hi) ?_ (fun j => ?_) (fun q hq => ?_) hs ht <;>
    rw [s.claimList_of_removed p _ i hc]
  · rw [if_pos rfl]; exact List.filter_sublist.map _
  · rw [if_pos rfl]; exact holds_filter_names
  · rw [if_neg (Ne.symm hq)]

theorem completeClaim (hi : Holds (s.claimList p) i) : (s.completeClaim p i).ClaimsSound := by
  refine h.removed hi (State.claims_completeClaim s p i) (fun j hj => ?_) ?_ <;> rw [State.source_completeClaim]
  · exact if_neg hj
  · rw [if_pos rfl]
    split_ifs <;> rfl

theorem deferClaim (hi : Holds (s.claimList p) i) : (s.deferClaim p i).ClaimsSound := by
  refine h.removed hi (State.claims_deferClaim s p i) (fun j hj => ?_) ?_ <;>
    rw [State.deferClaim, State.source_follow, State.source_returnClaim]
  · exact if_neg hj
  · rw [if_pos rfl]
    split_ifs <;> rfl

theorem retract (hi : (s.source i).state = .claimed p) (time : Time) : (s.retract p i time).ClaimsSound := by
  have lists : ∀ q, (s.retract p i time).claimList q = (s.markLost p i).claimList q :=
    fun q => by rw [State.claimList, State.claims_retract]; rfl
  refine h.ended hi ?_ (fun j => ?_) (fun q hq => ?_) (fun j hj => ?_) ?_
  · rw [lists, State.claimList_markLost, if_pos rfl, map_source_lose]
  · rw [lists, State.claimList_markLost, if_pos rfl]; exact holds_map_lose
  · rw [lists, State.claimList_markLost, if_neg (Ne.symm hq)]
  · rw [State.source_retract, if_neg hj]
  · rw [State.source_retract, if_pos rfl]
    split_ifs <;> rfl

/-- The claimed source is in no list as a HELD entry, since it was offered; a RETRACTED entry for it goes. -/
theorem takeClaim (ho : s.offered p i = true) (hf : s.fullFor p i = false) : (s.takeClaim p i).ClaimsSound := by
  have free : ∀ q, ¬Holds (s.claimList q) i := fun q hq => State.not_claimed_of_offered ho (h.claimed_iff.2 hq)
  have kept : (s.listWithoutLost p i).Sublist (s.claimList p) := List.filter_sublist
  refine ⟨fun q => ?_, fun q => ?_, fun q j => ?_⟩
  · rw [State.claimList_takeClaim]
    split
    · simp only [State.fullFor, Config.claimCapacity, decide_eq_false_iff_not] at hf
      rw [List.length_append, List.length_singleton]
      omega
    · exact h.capacity q
  · rw [State.claimList_takeClaim]
    split
    · rw [List.map_append, List.nodup_append']
      refine ⟨(kept.map _).nodup (h.once p), List.nodup_singleton _, ?_⟩
      rw [List.map_singleton, List.disjoint_singleton]
      intro hm
      obtain ⟨e, he, hei⟩ := List.mem_map.1 hm
      exact free p (State.holds_listWithoutLost.1 ⟨e, he, hei, (State.mem_listWithoutLost.1 he).2 hei⟩)
    · exact h.once q
  · change _ ↔ Holds _ _
    rw [State.source_takeClaim, State.claimList_takeClaim]
    by_cases hq : p = q
    · subst hq
      rw [if_pos rfl, holds_append_claim, State.holds_listWithoutLost, ← h.claimed_iff]
      split <;> [simp [*]; simp [*]]
    · rw [if_neg hq, ← h.claimed_iff]
      split
      · rename_i hj
        subst hj
        simp [hq, State.not_claimed_of_offered ho]
      · exact Iff.rfl

/-- The claims a port clear gives back are those of its port's list. -/
theorem tableCleared (hc : TableCleared p s t) : t.ClaimsSound := by
  have state : ∀ j, (t.source j).state.claimant =
      if (s.source j).state = .claimed p then none else (s.source j).state.claimant := by
    intro j
    rw [hc.source, ← if_congr (h.claimed_iff.trans holds_iff_isHeld) rfl rfl]
    unfold unlentRecord releasedRecord
    split_ifs <;> rfl
  refine ⟨fun q => ?_, fun q => ?_, fun q j => ?_⟩
  · by_cases hq : q = p
    · subst hq; simp [hc.emptied]
    · rw [hc.otherLists q hq]; exact h.capacity q
  · by_cases hq : q = p
    · subst hq; simp [hc.emptied]
    · rw [hc.otherLists q hq]; exact h.once q
  · change _ ↔ Holds _ _
    rw [← SrcState.claimant_eq_some_iff, state]
    by_cases hq : q = p
    · subst hq
      rw [hc.emptied]
      refine iff_of_false ?_ (not_holds_nil j)
      split
      · simp
      · rwa [SrcState.claimant_eq_some_iff]
    · rw [hc.otherLists q hq, ← h.claimed_iff]
      split
      · rename_i hj
        rw [hj]
        exact iff_of_false (by simp) fun hp => hq (SrcState.claimed.inj hp).symm
      · exact SrcState.claimant_eq_some_iff

end State.ClaimsSound

theorem State.claimsSound_clear (s : State) (t : Settings) (power : PowerState) : (s.clear t power).ClaimsSound := by
  have record : ∀ i, (s.clear t power).source i = SourceRec.default :=
    fun i => by simp [State.clear, State.source, Table.at]
  refine ⟨fun q => ?_, fun q => ?_, fun q i => ?_⟩ <;> rw [State.claimList_clear]
  · exact Nat.zero_le _
  · exact List.nodup_nil
  · rw [record]
    exact iff_of_false (by simp [SourceRec.default]) (not_holds_nil i)

/-- Every operation of the commands keeps the claim lists sound. -/
theorem keptByOperations_claimsSound : KeptByOperations State.ClaimsSound where
  pending _ _ h := h.of_eq rfl rfl
  setLink _ _ _ h _ := h.of_eq rfl rfl
  setLine _ _ _ h _ := h.of_eq rfl rfl
  top _ _ h _ := h.of_eq rfl rfl
  threshold _ _ _ h _ := h.of_eq rfl rfl
  claim _ _ _ h _ ho hf := h.takeClaim ho hf
  complete _ _ _ _ h _ he hh := h.completeClaim (State.holds_of_entryOf he hh)
  lost _ _ _ h _ := h.dropLost
  defer _ _ _ _ h _ he hh := h.deferClaim (State.holds_of_entryOf he hh)
  post _ i h _ _ := (h.takeEvent (i := i)).of_eq (State.claims_follow _ _) (State.sources_follow _ _)
  bind _ _ i h _ _ := h.setSource (i := i) rfl
  unbind _ _ h _ hn := h.unbindSource hn
  lend _ _ _ _ h _ _ _ := h.setBorrower _
  recallLoan _ _ h _ := h.setBorrower _
  returnLoan _ _ _ h _ := h.returnSource
  priority s _ i v h _ _ :=
    (h.setSource (i := i) (r := { s.source i with priority := v }) rfl).of_eq rfl rfl
  group _ _ i _ h _ _ := h.setSource (i := i) rfl
  trigger _ _ i _ h _ _ _ := h.setSource (i := i) rfl
  qualify _ _ _ v h _ _ _ := h.writeQualify v
  waitLimit _ _ i _ h _ _ := h.setSource (i := i) rfl
  serviceLimit _ _ i _ h _ _ := h.setSource (i := i) rfl
  fallback s _ i v h _ _ :=
    (h.setSource (i := i) (r := { s.source i with fallback := v }) rfl).of_eq rfl rfl
  posters _ _ i _ h _ _ _ := h.setSource (i := i) rfl
  enable _ _ _ h _ _ := h.enableSource
  disable _ _ _ h _ _ := h.disableSource
  readIncident _ _ _ _ h _ _ := h.of_eq rfl rfl
  emptyQueue _ _ h _ := h.of_eq rfl rfl
  clearOffers _ _ h _ := h.of_eq rfl rfl
  clearTable s p h _ := h.tableCleared (s.tableCleared p (h.once p))
  settings _ _ h _ _ := h.of_eq rfl rfl
  watch _ h _ _ _ := h.of_eq rfl rfl
  startWaking _ h _ := h.of_eq rfl rfl
  wakingEnd _ h _ := h.of_eq rfl rfl
  clear s t power _ _ _ := s.claimsSound_clear t power
  pins _ _ _ h := h.of_eq rfl rfl
  hold _ _ h _ := h.of_eq rfl rfl
  takeChange _ n e rest h _ := h.takeChange n e rest
  wakeReports _ _ h := h.of_eq rfl rfl
  deliver _ _ _ h _ := h.of_eq rfl rfl
  deliverReached _ h := h.of_eq rfl rfl
  stopTimer _ _ h := h.of_eq rfl rfl
  escalate _ _ time h _ hs := h.escalate hs time
  retract _ _ _ time h _ hs := h.retract hs time
  enterActive _ h _ _ := h.of_eq rfl rfl
  enterFailed _ _ h _ _ := h.of_eq rfl rfl
  counters _ _ _ _ h _ := h.of_eq rfl rfl

/-- Settles O55: the lists are sound after every step, since every operation of the commands keeps them so. -/
theorem stepKeepsTheClaimsSound : Obligations.StepKeepsTheClaimsSound :=
  fun _ _ h hs => keptByOperations_claimsSound.step h hs

end Sys2Proof.Machine

/-! PROOF. CLAIM_TOP, CLAIM, COMPLETE, DEFER, LIST_CLAIMS and READ_SOURCE (O14 to O19). Each happening that takes or ends a
claim changes one source and the sender's list; a refusal is a taking that answers and leaves the part. -/

namespace Sys2Proof.Machine

/-! ## Taking a claim (R85 to R88) -/

/-- The list without a RETRACTED entry, in the words of the rules. -/
theorem State.listWithoutLost_eq (s : State) (p : Port) (i : SourceNo) :
    s.listWithoutLost p i = (s.claimList p).filter fun e => !(e.source == i && e.status == .retracted) :=
  List.filter_congr fun e _ => by rw [ClaimEntry.not_isHeld, ClaimEntry.names]

theorem State.fullFor_iff {s : State} {p : Port} {i : SourceNo} : s.fullFor p i = true ↔
    8 ≤ ((s.claimList p).filter fun e => !(e.source == i && e.status == .retracted)).length := by
  rw [← State.listWithoutLost_eq]
  exact decide_eq_true_iff

theorem State.fullFor_eq_false_iff {s : State} {p : Port} {i : SourceNo} : s.fullFor p i = false ↔
    ((s.claimList p).filter fun e => !(e.source == i && e.status == .retracted)).length < 8 := by
  rw [← Bool.not_eq_true, State.fullFor_iff, not_le]

theorem State.timer_takeClaim (s : State) (p : Port) (i j : SourceNo) :
    (s.takeClaim p i).timer j =
      if i = j then timerFrom s.partTime .service (s.source i).serviceLimit else s.timer j := by
  simp [State.takeClaim, State.timer_startTimer]

theorem ChangesOneSource.takeClaim (s : State) (p : Port) (i : SourceNo) :
    ChangesOneSource p i s (s.takeClaim p i) where
  surroundings := by constructor <;> simp
  otherSources j hj := by
    rw [State.source_takeClaim, State.timer_takeClaim, if_neg (Ne.symm hj), if_neg (Ne.symm hj)]
    exact ⟨rfl, rfl⟩
  otherLinks q _ := State.link_takeClaim s p i q
  offers := State.offersFollow_follow (by simp)

theorem State.claimTaken_takeClaim (s : State) (p : Port) (i : SourceNo) : ClaimTaken p i s (s.takeClaim p i) where
  list := by rw [State.claimList_takeClaim, if_pos rfl, State.listWithoutLost_eq]
  otherLists q hq := by rw [State.claimList_takeClaim, if_neg (Ne.symm hq)]
  record := by rw [State.source_takeClaim, if_pos rfl]
  timer := by rw [State.timer_takeClaim, if_pos rfl]
  queues := State.queues_takeClaim s p i

/-- An answer touches no block but the Link Interface. -/
theorem ClaimTaken.answer {p : Port} {i : SourceNo} {s t : State} (h : ClaimTaken p i s t) (a : Answer) :
    ClaimTaken p i s (t.answer p (some a) true) where
  list := (State.claimList_answer _ _ _ _ _).trans h.list
  otherLists q hq := (State.claimList_answer _ _ _ _ _).trans (h.otherLists q hq)
  record := (State.source_answer _ _ _ _ _).trans h.record
  timer := (State.timer_answer _ _ _ _ _).trans h.timer
  queues := (State.queues_answer _ _ _ _).trans h.queues

/-- A claim taken and answered, by either command. -/
theorem State.takeClaim_answered (s : State) (p : Port) (i : SourceNo) (code : HostCode) :
    ClaimTaken p i s ((s.takeClaim p i).answer p (some ⟨code.byte, .ok, claimAnswer s i⟩) true) ∧
      ChangesOneSource p i s ((s.takeClaim p i).answer p (some ⟨code.byte, .ok, claimAnswer s i⟩) true) ∧
      Answered p code .ok (claimAnswer s i) s
        ((s.takeClaim p i).answer p (some ⟨code.byte, .ok, claimAnswer s i⟩) true) :=
  ⟨(s.claimTaken_takeClaim p i).answer _, (ChangesOneSource.takeClaim s p i).answer _,
    (State.answered_answer (s.links_takeClaim p i) (s.power_takeClaim p i) p code .ok _).1⟩

section

variable {s : State} {p : Port} {i : SourceNo}

theorem takeClaimTop_taken (ht : s.top p = some i) (hf : s.fullFor p i = false) :
    takeClaimTop p s = (s.takeClaim p i, okWith (claimAnswer s i)) := by
  simp only [takeClaimTop, ht, hf, Bool.false_eq_true, if_false]
  rfl

theorem takeClaimTop_full (ht : s.top p = some i) (hf : s.fullFor p i = true) :
    takeClaimTop p s = (s, refuse .full) := by
  simp only [takeClaimTop, ht, hf, if_true]

/-- Without a top no entry is left out of the count (R85). -/
theorem takeClaimTop_full_of_no_top (ht : s.top p = none) (hl : 8 ≤ (s.claimList p).length) :
    takeClaimTop p s = (s, refuse .full) := by
  simp only [takeClaimTop, ht]
  exact if_pos hl

theorem takeClaimTop_nothingOffered (ht : s.top p = none) (hl : (s.claimList p).length < 8) :
    takeClaimTop p s = (s, refuse .nothingOffered) := by
  simp only [takeClaimTop, ht]
  exact if_neg (not_le.2 hl)

theorem takeClaimOf_full (hf : s.fullFor p i = true) : takeClaimOf p i s = (s, refuse .full) := if_pos hf

theorem takeClaimOf_taken (hf : s.fullFor p i = false) {q : Port} (hc : (s.source i).state = .claimed q) :
    takeClaimOf p i s = (s, refuse .taken) := by
  rw [takeClaimOf, hf, if_neg Bool.false_ne_true, hc]
  rfl

theorem takeClaimOf_notOffered (hf : s.fullFor p i = false) (hc : ¬∃ q, (s.source i).state = .claimed q)
    (ho : s.offered p i = false) : takeClaimOf p i s = (s, refuse .notOffered) := by
  simp only [takeClaimOf, hf, SrcState.claimant_isSome_eq_false hc, ho, Bool.false_eq_true, if_false]

/-- An offered source is not CLAIMED, so CLAIM of it is not answered TAKEN. -/
theorem takeClaimOf_offered (hf : s.fullFor p i = false) (ho : s.offered p i = true) :
    takeClaimOf p i s = (s.takeClaim p i, okWith (claimAnswer s i)) := by
  have free : ¬∃ q, (s.source i).state = .claimed q := fun ⟨_, hc⟩ => State.not_claimed_of_offered ho hc
  simp only [takeClaimOf, hf, SrcState.claimant_isSome_eq_false free, ho, Bool.false_eq_true, if_false, if_true]
  rfl

end

/-- Settles O14: both commands take the same claim and answer what it found. -/
theorem claimsAreTaken : Obligations.ClaimsAreTaken := by
  intro p i s hl
  have room := State.fullFor_eq_false_iff.2 hl
  refine ⟨fun hr ht => ⟨_, congrArg Host.Outcome.next ?_, s.takeClaim_answered p i .claimTop⟩,
    fun b hr hi ho => ⟨_, congrArg Host.Outcome.next ?_, s.takeClaim_answered p i .claim⟩⟩
  · rw [State.ownerTakes_of_ready hr, takeClaimTop_taken ht room]
    rfl
  · rw [State.ownerTakes_onSource hr hi, takeClaimOf_offered room ho]
    rfl

/-- CLAIM_TOP refused changes nothing but the answer. -/
theorem exec_claimTop_refused {p : Port} {s : State} {r : Result} (hr : Ready s p (.claimTop p))
    (ht : takeClaimTop p s = (s, refuse r)) : exec (.claimTop p) s = .next (refusedWith s p .claimTop r) := by
  refine congrArg Host.Outcome.next ?_
  rw [State.ownerTakes_of_ready hr, ht]
  rfl

/-- Settles O15: each command stops at its first check that fails. -/
theorem claimRefusalsInOrder : Obligations.ClaimRefusalsInOrder := by
  intro p b s
  refine ⟨fun hr => ⟨fun hb => congrArg Host.Outcome.next (State.ownerTakes_onSource_out hr hb), fun i hi => ?claim⟩,
    fun hr => ?claimTop⟩
  case claim =>
    refine ⟨fun hl => ?full, fun hl => ⟨fun ⟨q, hc⟩ => ?taken, fun hc ho => ?notOffered⟩⟩ <;>
      refine congrArg Host.Outcome.next (State.ownerTakes_onSource_refuse hr hi ?_)
    case full => exact takeClaimOf_full (State.fullFor_iff.2 hl)
    case taken => exact takeClaimOf_taken (State.fullFor_eq_false_iff.2 hl) hc
    case notOffered => exact takeClaimOf_notOffered (State.fullFor_eq_false_iff.2 hl) hc ho
  case claimTop =>
    exact ⟨fun i ht hl => exec_claimTop_refused hr (takeClaimTop_full ht (State.fullFor_iff.2 hl)),
      fun ht hl => exec_claimTop_refused hr (takeClaimTop_full_of_no_top ht hl),
      fun ht hl => exec_claimTop_refused hr (takeClaimTop_nothingOffered ht hl)⟩

/-! ## COMPLETE (R91, R92) -/

/-- The timer of the source by the four outcomes of R91. -/
theorem State.timer_completeClaim (s : State) (p : Port) (i j : SourceNo) :
    (s.completeClaim p i).timer j =
      if i = j then
        (if (s.source i).enabled = true ∧ 0 < (s.source i).count then timerFrom s.partTime .wait (s.source i).waitLimit
        else if (s.source i).enabled = true ∧ s.lineActive i = true then
          timerFrom s.partTime .wait (s.source i).waitLimit
        else none)
      else s.timer j := by
  have line : ((s.removeEntry p i).stopTimer i).lineActive i = s.lineActive i := rfl
  unfold State.completeClaim
  dsimp only
  rw [State.timer_follow, line]
  by_cases hj : i = j
  · subst hj
    split_ifs <;> simp_all [State.timer_makePending]
  · split_ifs <;> simp [State.timer_makePending, hj]

theorem ChangesOneSource.completeClaim (s : State) (p : Port) (i : SourceNo) :
    ChangesOneSource p i s (s.completeClaim p i) where
  surroundings := by constructor <;> simp
  otherSources j hj := by
    rw [State.source_completeClaim, State.timer_completeClaim, if_neg (Ne.symm hj), if_neg (Ne.symm hj)]
    exact ⟨rfl, rfl⟩
  otherLinks q _ := State.link_completeClaim s p i q
  offers := State.offersFollow_follow (by split_ifs <;> simp)

section

variable {s : State} {p : Port} {i : SourceNo} {e : ClaimEntry}

theorem takeComplete_of_held (he : s.entryOf p i = some e) (hh : e.status = .held) :
    takeComplete p i s = (s.completeClaim p i, okWith (countPayload (s.completeClaim p i) i)) := by
  simp only [takeComplete, he, e.isHeld_iff.2 hh, if_true]

theorem ClaimEntry.isHeld_of_retracted (hh : e.status = .retracted) : e.isHeld = false := by
  rw [ClaimEntry.isHeld, hh]
  rfl

theorem takeComplete_of_lost (he : s.entryOf p i = some e) (hh : e.status = .retracted) :
    takeComplete p i s = (s.dropLost p i, ⟨.tooLate, lostPayload e⟩) := by
  simp only [takeComplete, he, ClaimEntry.isHeld_of_retracted hh, Bool.false_eq_true, if_false]

theorem takeComplete_of_none (he : s.entryOf p i = none) : takeComplete p i s = (s, refuse .notClaimed) := by
  simp only [takeComplete, he]

end

theorem countPayload_eq {b : Byte} {i : SourceNo} (hi : b.toNat = i.val) (t : State) :
    countPayload t i = [b, (t.source i).state.byte, byteOf (t.source i).count] := by
  rw [countPayload, byteOf_source hi]

/-- COMPLETE of a HELD entry. -/
theorem exec_complete_of_held {p : Port} {b : Byte} {i : SourceNo} {e : ClaimEntry} {s t : State}
    (hr : Ready s p (.complete p b)) (hi : b.toNat = i.val) (he : s.entryOf p i = some e) (hh : e.status = .held)
    (ht : s.completeClaim p i = t) :
    exec (.complete p b) s = .next (t.answer p
      (some ⟨HostCode.complete.byte, .ok, [b, (t.source i).state.byte, byteOf (t.source i).count]⟩) true) := by
  refine congrArg Host.Outcome.next ?_
  rw [State.ownerTakes_onSource hr hi, takeComplete_of_held he hh, ht, countPayload_eq hi]
  rfl

/-- Settles O16: the four outcomes are those of the record and the timer that COMPLETE leaves. -/
theorem completeEndsAHeldClaim : Obligations.CompleteEndsAHeldClaim := by
  intro p b i e s hr hi he hh
  have changed := ChangesOneSource.completeClaim s p i
  have list (q : Port) := s.claimList_of_removed p q i (s.claims_completeClaim p i)
  have queues := s.queues_completeClaim p i
  have record := s.source_completeClaim p i i
  have timer := s.timer_completeClaim p i i
  have links := s.links_completeClaim p i
  have power := s.power_completeClaim p i
  generalize ht : s.completeClaim p i = t at *
  refine ⟨_, exec_complete_of_held hr hi he hh ht, changed.answer _, ?_, fun q hq => ?_, ?_, ?_, ?_⟩
  · exact (State.claimList_answer _ _ _ _ _).trans ((list p).trans (if_pos rfl))
  · exact (State.claimList_answer _ _ _ _ _).trans ((list q).trans (if_neg (Ne.symm hq)))
  · rw [State.queues_answer, queues]
  · rw [State.source_answer, State.timer_answer, record, timer, if_pos rfl, if_pos rfl]
    split_ifs <;> exact ⟨rfl, rfl⟩
  · rw [State.source_answer]
    exact (State.answered_answer links power p .complete .ok _).1

/-- Settles O17: the RETRACTED entry goes and is answered; without an entry the command is refused. -/
theorem completeOfALostOrMissingEntry : Obligations.CompleteOfALostOrMissingEntry := by
  intro p b s hr
  refine ⟨fun hb => congrArg Host.Outcome.next (State.ownerTakes_onSource_out hr hb), fun i hi =>
    ⟨fun e he hh => congrArg Host.Outcome.next ?_, fun he => congrArg Host.Outcome.next
      (State.ownerTakes_onSource_refuse hr hi (takeComplete_of_none he))⟩⟩
  have named : byteOf e.source.val = b := by rw [State.source_of_entryOf he, byteOf_source hi]
  rw [State.ownerTakes_onSource hr hi, takeComplete_of_lost he hh, State.dropLost, State.listWithoutLost_eq,
    lostPayload, named]
  rfl

/-! ## DEFER (R95) -/

theorem State.source_deferClaim (s : State) (p : Port) (i j : SourceNo) :
    (s.deferClaim p i).source j =
      if i = j then
        (if (s.source i).enabled then { s.source i with state := .pending, count := raisedCount (s.source i).count }
        else { s.source i with state := .quiet, count := 0 })
      else s.source j := by
  rw [State.deferClaim, State.source_follow, State.source_returnClaim]
  rfl

theorem State.timer_deferClaim (s : State) (p : Port) (i j : SourceNo) :
    (s.deferClaim p i).timer j =
      if i = j then
        (if (s.source i).enabled then timerFrom s.partTime .wait (s.source i).waitLimit else none)
      else s.timer j := by
  rw [State.deferClaim, State.timer_follow, State.timer_returnClaim]
  rfl

theorem State.queue_deferClaim (s : State) (p q : Port) (i : SourceNo) :
    (s.deferClaim p i).queue q =
      if (s.source i).enabled = true ∧ (s.source i).binder = some q ∧ (s.source i).count = 14 then
        (s.queue q).push ⟨.countSaturated, i, none, 0#8, s.partTime⟩
      else s.queue q := by
  rw [State.deferClaim, State.queue_follow, State.queue_returnClaim]
  rfl

theorem ChangesOneSource.deferClaim (s : State) (p : Port) (i : SourceNo) :
    ChangesOneSource p i s (s.deferClaim p i) where
  surroundings := by constructor <;> simp
  otherSources j hj := by
    rw [State.source_deferClaim, State.timer_deferClaim, if_neg (Ne.symm hj), if_neg (Ne.symm hj)]
    exact ⟨rfl, rfl⟩
  otherLinks q _ := State.link_deferClaim s p i q
  offers := State.offersFollow_follow (by simp)

section

variable {s : State} {p : Port} {i : SourceNo}

theorem takeDefer_of_held {e : ClaimEntry} (he : s.entryOf p i = some e) (hh : e.status = .held) :
    takeDefer p i s = (s.deferClaim p i, okWith (countPayload (s.deferClaim p i) i)) := by
  simp only [takeDefer, he, e.isHeld_iff.2 hh, if_true]

/-- DEFER asks for a HELD entry; a RETRACTED one is as good as none. -/
theorem takeDefer_of_not_held (he : ∀ e, s.entryOf p i = some e → e.status = .retracted) :
    takeDefer p i s = (s, refuse .notClaimed) := by
  unfold takeDefer
  split
  · rename_i e hs
    rw [ClaimEntry.isHeld_of_retracted (he e hs), if_neg Bool.false_ne_true]
  · rfl

end

/-- DEFER of a HELD entry. -/
theorem exec_defer_of_held {p : Port} {b : Byte} {i : SourceNo} {e : ClaimEntry} {s t : State}
    (hr : Ready s p (.defer p b)) (hi : b.toNat = i.val) (he : s.entryOf p i = some e) (hh : e.status = .held)
    (ht : s.deferClaim p i = t) :
    exec (.defer p b) s = .next (t.answer p
      (some ⟨HostCode.defer.byte, .ok, [b, (t.source i).state.byte, byteOf (t.source i).count]⟩) true) := by
  refine congrArg Host.Outcome.next ?_
  rw [State.ownerTakes_onSource hr hi, takeDefer_of_held he hh, ht, countPayload_eq hi]
  rfl

/-- Settles O18: the claim is given back and answered, or the command is refused. -/
theorem deferGivesTheClaimBack : Obligations.DeferGivesTheClaimBack := by
  intro p b s hr
  refine ⟨fun hb => congrArg Host.Outcome.next (State.ownerTakes_onSource_out hr hb), fun i hi =>
    ⟨fun e he hh => ?_, fun he => congrArg Host.Outcome.next
      (State.ownerTakes_onSource_refuse hr hi (takeDefer_of_not_held he))⟩⟩
  have changed := ChangesOneSource.deferClaim s p i
  have list (q : Port) := s.claimList_of_removed p q i (s.claims_deferClaim p i)
  have queue (q : Port) := s.queue_deferClaim p q i
  have record := s.source_deferClaim p i i
  have timer := s.timer_deferClaim p i i
  have links := s.links_deferClaim p i
  have power := s.power_deferClaim p i
  generalize ht : s.deferClaim p i = t at *
  refine ⟨_, exec_defer_of_held hr hi he hh ht, changed.answer _, ?_, fun q hq => ?_, ?_, ?_⟩
  · exact (State.claimList_answer _ _ _ _ _).trans ((list p).trans (if_pos rfl))
  · exact (State.claimList_answer _ _ _ _ _).trans ((list q).trans (if_neg (Ne.symm hq)))
  · rw [State.source_answer, State.timer_answer, State.queues_answer, record, timer, if_pos rfl, if_pos rfl]
    split_ifs with hen
    · refine ⟨rfl, rfl, fun q => ?_⟩
      rw [State.queue_answer, queue]
      exact if_congr (and_iff_right hen) rfl rfl
    · exact ⟨rfl, rfl, State.queues_ext fun q => (queue q).trans (if_neg fun hc => hen hc.1)⟩
  · rw [State.source_answer]
    exact (State.answered_answer links power p .defer .ok _).1

/-! ## LIST_CLAIMS and READ_SOURCE (R97, R24) -/

/-- Table D in the words of R151. -/
theorem listPayload_eq (s : State) (p : Port) :
    listPayload s p =
      [byteOf (s.claimList p).length, byteOf ((s.claimList p).countP (·.status == .held)),
       byteOf ((s.claimList p).countP (·.status == .retracted))] ++
        (s.claimList p).flatMap (fun e =>
          [byteOf e.source.val, reportedLevel e.level,
           flagsByte false (unnumberedMark e.level) false (e.status == .retracted)] ++ timeBytes e.claimedAt) := by
  have entry : entryPayload = fun e => [byteOf e.source.val, reportedLevel e.level,
      flagsByte false (unnumberedMark e.level) false (e.status == .retracted)] ++ timeBytes e.claimedAt :=
    funext fun e => by rw [entryPayload, ClaimEntry.not_isHeld]; rfl
  simp only [listPayload, entry, State.retractedCount, ClaimEntry.not_isHeld]
  rfl

/-- Settles O19: each command answers its table and leaves the part. -/
theorem listClaimsAndReadSourceReport : Obligations.ListClaimsAndReadSourceReport := by
  intro p b s
  refine ⟨fun hr => congrArg Host.Outcome.next ?_, fun hr => ⟨fun hb => congrArg Host.Outcome.next
    (State.ownerTakes_onSource_out hr hb), fun i hi => congrArg Host.Outcome.next ?_⟩⟩
  · rw [State.ownerTakes_of_ready hr, listPayload_eq]
    rfl
  · rw [State.ownerTakes_onSource hr hi, sourcePayload, byteOf_source hi]
    rfl

end Sys2Proof.Machine

/-! PROOF. The Source Table's part of a port clear (O34). In sound claim lists the sources whose claims it gives back are
those CLAIMED by its port. -/

namespace Sys2Proof.Machine

section

variable {p : Port} {s t : State} (h : s.ClaimsSound) (c : TableCleared p s t)

include h c

/-- A claim given back and a loan ended are written to different fields of the record. -/
theorem TableCleared.source_of_sound (i : SourceNo) :
    t.source i =
      { s.source i with
        borrower := if (s.source i).borrower = some p then none else (s.source i).borrower
        state :=
          if (s.source i).state = .claimed p then (if (s.source i).enabled then .pending else .quiet)
          else (s.source i).state
        count :=
          if (s.source i).state = .claimed p then
            (if (s.source i).enabled then raisedCount (s.source i).count else 0)
          else (s.source i).count } := by
  rw [c.source, ← if_congr (h.claimed_iff.trans holds_iff_isHeld) rfl rfl]
  unfold unlentRecord releasedRecord
  split_ifs <;> rfl

theorem TableCleared.timer_of_sound (i : SourceNo) :
    t.timer i =
      if (s.source i).state = .claimed p then
        (if (s.source i).enabled then timerFrom s.partTime .wait (s.source i).waitLimit else none)
      else s.timer i := by
  rw [c.timer, ← if_congr (h.claimed_iff.trans holds_iff_isHeld) rfl rfl]
  rfl

end

/-- The three numbers of R99. -/
theorem clearPayload_eq (s : State) (p : Port) :
    clearPayload s p =
      [byteOf ((s.claimList p).countP (·.status == .held)), byteOf ((s.claimList p).countP (·.status == .retracted)),
       byteOf ((List.finRange 96).countP fun i => (s.source i).borrower == some p)] := by
  simp only [clearPayload, State.retractedCount, ClaimEntry.not_isHeld]
  rfl

theorem KeepsSurroundings.setLink {s t : State} (h : KeepsSurroundings s t) (p : Port) (l : Link) :
    KeepsSurroundings s (t.setLink p l) := { h with }

/-- The Source Table's part, taken where the port clear stands before it. -/
theorem exec_portClearSourceTablePart {p : Port} {s : State} (hh : s.inHold = false)
    (hc : (s.link p).clearing = .sourceTableNext) :
    exec (.portClearSourceTablePart p) s =
      .next (((s.clearTable p).setLink p { s.link p with clearing := .idle }).answer p
        (some ((okWith (clearPayload s p)).answer .portClear)) true) := by
  refine congrArg Host.Outcome.next (if_pos ?_)
  simp [hh, hc]

/-- Settles O34: the table is cleared, then the Link Interface of the port ends its port clear and answers. -/
theorem portClearReturnsClaimsAndEndsLoans : Obligations.PortClearReturnsClaimsAndEndsLoans := by
  intro p s hh hc h
  have cleared := s.tableCleared p (h.once p)
  have hx := exec_portClearSourceTablePart hh hc
  rw [clearPayload_eq] at hx
  generalize s.clearTable p = u at cleared hx
  refine ⟨_, hx, (cleared.surroundings.setLink _ _).answer _ _ _, fun q hq => ?_,
    cleared.offers.of_eq rfl rfl rfl, ?_, fun q hq => ?_, fun i => ?_, fun i => ?_,
    fun q => ?_, ?_⟩
  · rw [State.keepsOtherLinks_answer _ _ _ _ q hq, State.link_setLink, if_neg (Ne.symm hq), State.link, cleared.links]
    rfl
  · rw [State.claimList_answer]; exact cleared.emptied
  · rw [State.claimList_answer]; exact cleared.otherLists q hq
  · rw [State.source_answer]; exact cleared.source_of_sound h i
  · rw [State.timer_answer]; exact cleared.timer_of_sound h i
  · rw [State.queue_answer]; exact cleared.queue q
  · rw [State.link_answer, State.link_setLink_same, State.power_setLink, cleared.surroundings.power]
    rfl

end Sys2Proof.Machine

/-! PROOF. One microsecond of an empty queue, and the expiries of the timers (O3, O49, O50, O51). A microsecond advances the
counters of its power state and then reads off what is due; an expiry is taken exactly where it has been delivered and part
time runs. -/

namespace Sys2Proof.Machine

/-! ## What is due (R45, R105, R155, R163) -/

section

variable {s : State} {c : Instr}

theorem State.mem_dueSpans :
    c ∈ s.dueSpans ↔ ∃ n start, c = .qualifyTimeReached n ∧ s.sampled n = true ∧ (s.line n).span = some start ∧
      (s.source (sourceOf n)).qualify.val ≤ s.samplerTime - start := by
  have reached (n : LineNo) : (s.line n).spanReached s.samplerTime (s.qualifyTime n) = true ↔
      ∃ start, (s.line n).span = some start ∧ s.qualifyTime n ≤ s.samplerTime - start := by
    unfold Line.spanReached
    split <;> simp_all
  simp only [State.dueSpans, List.mem_map, List.mem_filter, List.mem_finRange, true_and, Bool.and_eq_true, reached]
  constructor
  · rintro ⟨n, ⟨sampled, start, span, held⟩, rfl⟩
    exact ⟨n, start, rfl, sampled, span, held⟩
  · rintro ⟨n, start, rfl, sampled, span, held⟩
    exact ⟨n, ⟨sampled, start, span, held⟩, rfl⟩

theorem State.mem_dueTimers :
    c ∈ s.dueTimers ↔ ∃ i x, c = .timerExpiryDelivered i ∧ s.timer i = some x ∧ x.delivered = false ∧
      x.reached s.partTime = true := by
  simp only [State.dueTimers, List.mem_map, List.mem_filter, List.mem_finRange, true_and]
  constructor
  · rintro ⟨i, due, rfl⟩
    cases timer : s.timer i with
    | none => simp [timer] at due
    | some x => exact ⟨i, x, rfl, timer, by simpa [timer, Timer.due] using due⟩
  · rintro ⟨i, x, rfl, timer, undelivered, reached⟩
    exact ⟨i, by simp [timer, Timer.due, undelivered, reached], rfl⟩

theorem State.mem_dueWaking :
    c ∈ s.dueWaking ↔ c = .wakingEnd ∧ s.power = .waking ∧ 20 ≤ (s.partTime - s.wakingSince).toNat := by
  rw [State.dueWaking, List.mem_ite_nil_right, List.mem_singleton, State.wakingDone, Bool.and_eq_true, beq_iff_eq,
    decide_eq_true_eq, and_comm]

theorem State.mem_dueCheck : c ∈ s.dueCheck ↔ c = .tableCheck .nothing ∧ 48 ≤ s.initTime := by
  rw [State.dueCheck, List.mem_ite_nil_right, List.mem_singleton, and_comm]

/-- What is due in the power state the part is in. -/
def State.due (s : State) : List Instr :=
  match s.power with
  | .init => s.dueCheck
  | .active | .waking => s.dueSpans ++ s.dueTimers ++ s.dueWaking
  | .watch => s.dueSpans
  | .dormant | .failed => []

theorem State.mem_due :
    c ∈ s.due ↔
      (∃ n start, c = .qualifyTimeReached n ∧ s.sampled n = true ∧ (s.line n).span = some start ∧
        (s.source (sourceOf n)).qualify.val ≤ s.samplerTime - start) ∨
      (∃ i x, c = .timerExpiryDelivered i ∧ (s.power = .active ∨ s.power = .waking) ∧ s.timer i = some x ∧
        x.delivered = false ∧ x.reached s.partTime = true) ∨
      (c = .wakingEnd ∧ s.power = .waking ∧ 20 ≤ (s.partTime - s.wakingSince).toNat) ∨
      (c = .tableCheck .nothing ∧ s.power = .init ∧ 48 ≤ s.initTime) := by
  cases power : s.power
  case init => simp [State.due, power, State.mem_dueCheck, State.sampled]
  case active | waking => simp [State.due, power, State.mem_dueSpans, State.mem_dueTimers, State.mem_dueWaking]
  case watch => simp [State.due, power, State.mem_dueSpans]
  case dormant | failed => simp [State.due, power, State.sampled]

end

/-! ## One microsecond (R44, R100) -/

/-- The part with the counters of its power state advanced, before what is due is looked for. -/
def State.advance (s : State) : State :=
  { s with
    partTime := if s.power = .active ∨ s.power = .waking then s.partTime + 1#32 else s.partTime
    samplerTime :=
      if s.power = .active ∨ s.power = .waking ∨ s.power = .watch then s.samplerTime + 1 else s.samplerTime
    initTime := if s.power = .init then s.initTime + 1 else s.initTime }

section

variable (s : State)

@[simp] theorem State.power_advance : s.advance.power = s.power := rfl
@[simp] theorem State.wakingSince_advance : s.advance.wakingSince = s.wakingSince := rfl
@[simp] theorem State.source_advance (i : SourceNo) : s.advance.source i = s.source i := rfl
@[simp] theorem State.timer_advance (i : SourceNo) : s.advance.timer i = s.timer i := rfl
@[simp] theorem State.line_advance (n : LineNo) : s.advance.line n = s.line n := rfl
@[simp] theorem State.sampled_advance (n : LineNo) : s.advance.sampled n = s.sampled n := rfl

end

section

variable {s : State}

theorem State.partTime_advance_of_runs (h : s.power = .active ∨ s.power = .waking) :
    s.advance.partTime = s.partTime + 1#32 := if_pos h

theorem State.samplerTime_advance_of_sampled {n : LineNo} (h : s.sampled n = true) :
    s.advance.samplerTime = s.samplerTime + 1 := by
  refine if_pos ?_
  unfold State.sampled at h
  cases power : s.power <;> simp_all

theorem State.initTime_advance_of_init (h : s.power = .init) : s.advance.initTime = s.initTime + 1 := if_pos h

/-- A microsecond outside a hold advances the counters, and what is then due fills the empty queue. -/
theorem State.tick_eq_advance (hp : s.pending = []) (hh : s.inHold = false) :
    s.tick = { s.advance with pending := s.advance.due } := by
  unfold State.tick State.advance State.due
  rw [if_neg (Bool.eq_false_iff.1 hh)]
  obtain ⟨⟩ := s
  dsimp only at hp
  subst hp
  cases ‹PowerState› <;> rfl

/-- What a microsecond makes due, read off the part before it. -/
theorem State.mem_due_advance {c : Instr} :
    c ∈ s.advance.due ↔
      (∃ n start, c = .qualifyTimeReached n ∧ s.sampled n = true ∧ (s.line n).span = some start ∧
        (s.source (sourceOf n)).qualify.val ≤ s.samplerTime + 1 - start) ∨
      (∃ i x, c = .timerExpiryDelivered i ∧ (s.power = .active ∨ s.power = .waking) ∧ s.timer i = some x ∧
        x.delivered = false ∧ x.reached (s.partTime + 1#32) = true) ∨
      (c = .wakingEnd ∧ s.power = .waking ∧ 20 ≤ (s.partTime + 1#32 - s.wakingSince).toNat) ∨
      (c = .tableCheck .nothing ∧ s.power = .init ∧ 48 ≤ s.initTime + 1) := by
  simp only [State.mem_due, State.power_advance, State.wakingSince_advance, State.source_advance, State.timer_advance,
    State.line_advance, State.sampled_advance]
  refine or_congr ?_ (or_congr ?_ (or_congr ?_ ?_))
  · refine exists_congr fun n => exists_congr fun start => and_congr_right fun _ => and_congr_right fun sampled => ?_
    rw [State.samplerTime_advance_of_sampled sampled]
  · refine exists_congr fun i => exists_congr fun x => and_congr_right fun _ => and_congr_right fun runs => ?_
    rw [State.partTime_advance_of_runs runs]
  · refine and_congr_right fun _ => and_congr_right fun waking => ?_
    rw [State.partTime_advance_of_runs (.inr waking)]
  · refine and_congr_right fun _ => and_congr_right fun init => ?_
    rw [State.initTime_advance_of_init init]

end

/-- Settles O3: the counters are those of the power state, and what they make due fills the empty queue. -/
theorem aMicrosecondRunsTheCounters : Obligations.AMicrosecondRunsTheCounters := by
  intro s hp hh
  refine ⟨{ s.advance with pending := s.advance.due }, ?_, rfl, rfl, rfl, rfl, fun c => State.mem_due_advance⟩
  rw [step, hp]
  exact congrArg Host.Outcome.next (State.tick_eq_advance hp hh)

/-! ## Expiries delivered and taken (R105, R106) -/

theorem State.partTimeRuns_iff {s : State} : s.partTimeRuns = true ↔ s.power = .active ∨ s.power = .waking := by
  simp [State.partTimeRuns]

/-- An expiry has been delivered once it is marked so, and at its expiry time whether marked or not (R105). -/
theorem Timer.expired_of_delivered {x : Timer} {now : Time} (h : x.delivered = true ∨ x.expiry = now) :
    x.expired now = true := by
  rcases h with marked | atExpiry
  · simp [Timer.expired, marked]
  · simp [Timer.expired, Timer.reached_of_eq atExpiry]

section

variable {s : State} {i : SourceNo} {x : Timer}

/-- A delivered expiry is the one that can be taken while part time runs (R8). -/
theorem State.expiryOf_of_delivered {kind : TimerKind} (hr : s.power = .active ∨ s.power = .waking)
    (ht : s.timer i = some x) (hk : x.kind = kind) (hd : x.delivered = true ∨ x.expiry = s.partTime) :
    s.expiryOf i kind = some x :=
  State.expiryOf_eq_some.2 ⟨ht, State.partTimeRuns_iff.2 hr, Timer.expired_of_delivered hd, hk⟩

/-- None can be taken while part time stands or before its delivery. -/
theorem State.expiryOf_eq_none (ht : s.timer i = some x)
    (h : ¬(s.partTimeRuns = true ∧ x.expired s.partTime = true)) (kind : TimerKind) : s.expiryOf i kind = none := by
  refine Option.eq_none_iff_forall_ne_some.2 fun y hy => h ?_
  obtain ⟨timer, runs, expired, -⟩ := State.expiryOf_eq_some.1 hy
  obtain rfl : x = y := Option.some.inj (ht.symm.trans timer)
  exact ⟨runs, expired⟩

theorem exec_timerExpiryDelivered_of_due (ht : s.timer i = some x) (hr : s.partTimeRuns = true)
    (hd : x.due s.partTime = true) :
    exec (.timerExpiryDelivered i) s = .next (s.setTimer i (some { x with delivered := true })) := by
  simp [exec, execTimerExpiryDelivered, ht, hr, hd]

theorem exec_timerExpiryDelivered_of_not_due (ht : s.timer i = some x)
    (h : ¬(s.partTimeRuns = true ∧ x.due s.partTime = true)) : exec (.timerExpiryDelivered i) s = .next s := by
  simp [exec, execTimerExpiryDelivered, ht, h]

theorem exec_waitExpiry_of_expiry (h : s.expiryOf i .wait = some x) (hp : (s.source i).state = .pending) :
    exec (.waitExpiry i) s = .next (s.escalate i x.expiry) := by
  simp only [exec, execWaitExpiry, h, if_pos hp]

theorem exec_waitExpiry_of_none (h : s.expiryOf i .wait = none) : exec (.waitExpiry i) s = .next s := by
  simp only [exec, execWaitExpiry, h]

theorem exec_serviceExpiry_of_expiry {p : Port} (h : s.expiryOf i .service = some x)
    (hc : (s.source i).state = .claimed p) : exec (.serviceExpiry i) s = .next (s.retract p i x.expiry) := by
  simp only [exec, execServiceExpiry, h, hc]

theorem exec_serviceExpiry_of_none (h : s.expiryOf i .service = none) : exec (.serviceExpiry i) s = .next s := by
  simp only [exec, execServiceExpiry, h]

/-- An expiry that part time has not brought about is neither delivered nor taken. -/
theorem exec_expiry_of_not_expired (ht : s.timer i = some x)
    (h : ¬(s.partTimeRuns = true ∧ x.expired s.partTime = true)) :
    ∀ c ∈ [Instr.timerExpiryDelivered i, .waitExpiry i, .serviceExpiry i], exec c s = .next s := by
  have not_due : ¬(s.partTimeRuns = true ∧ x.due s.partTime = true) := fun ⟨runs, due⟩ =>
    h ⟨runs, by simp_all [Timer.due, Timer.expired]⟩
  simp only [List.forall_mem_cons]
  exact ⟨exec_timerExpiryDelivered_of_not_due ht not_due, exec_waitExpiry_of_none (State.expiryOf_eq_none ht h _),
    exec_serviceExpiry_of_none (State.expiryOf_eq_none ht h _), List.forall_mem_nil _⟩

end

/-- Settles O49: an undelivered expiry is due exactly when part time runs and has reached it. -/
theorem timerExpiryIsDelivered : Obligations.TimerExpiryIsDelivered := by
  intro i x s ht hd
  have expired : x.expired s.partTime = x.reached s.partTime := by rw [Timer.expired, hd, Bool.false_or]
  refine ⟨fun hr hx => ?_, fun h1 h2 => ?_, fun ha hw => ?_⟩
  · exact exec_timerExpiryDelivered_of_due ht (State.partTimeRuns_iff.2 hr)
      (by rw [Timer.due, hd, Timer.reached_of_eq hx]; rfl)
  · refine exec_expiry_of_not_expired ht fun ⟨_, reached⟩ => ?_
    rw [expired, Timer.reached_eq_false h1 h2] at reached
    exact Bool.false_ne_true reached
  · exact exec_expiry_of_not_expired ht fun ⟨runs, _⟩ => (State.partTimeRuns_iff.1 runs).elim ha hw

/-! ## Escalation (R109) -/

section

variable (s : State) (i : SourceNo) (time : Time)

theorem State.source_escalate (j : SourceNo) :
    (s.escalate i time).source j = if i = j then { s.source i with state := .escalated } else s.source j := by
  simp [State.escalate]

theorem State.timer_escalate (j : SourceNo) :
    (s.escalate i time).timer j = if i = j then none else s.timer j := by
  simp [State.escalate]

theorem State.queue_escalate (q : Port) :
    (s.escalate i time).queue q =
      if (s.source i).binder = some q then
        (s.queue q).push ⟨.escalated, i, (s.source i).fallback, 0#8, time⟩
      else s.queue q := by
  simp [State.escalate, State.queue_writeIncident]

theorem State.keepsOtherSources_escalate : KeepsOtherSources i s (s.escalate i time) := fun j hj => by
  rw [State.source_escalate, State.timer_escalate, if_neg (Ne.symm hj), if_neg (Ne.symm hj)]
  exact ⟨rfl, rfl⟩

theorem State.keepsSurroundings_escalate : KeepsSurroundings s (s.escalate i time) := by constructor <;> simp

theorem State.offersFollow_escalate : OffersFollow s (s.escalate i time) := State.offersFollow_follow (by simp)

end

/-- Settles O50: the expiry is taken, and escalation reaches the source, its timer and its binder's queue alone. -/
theorem waitExpiryEscalates : Obligations.WaitExpiryEscalates := by
  intro i x b s hr ht hk hd hp hb
  have taken := State.expiryOf_of_delivered hr ht hk hd
  refine ⟨_, exec_waitExpiry_of_expiry taken hp, ?_, ?_, fun q => ?_, State.claims_escalate s i _,
    State.links_escalate s i _, s.keepsOtherSources_escalate i _, s.keepsSurroundings_escalate i _,
    s.offersFollow_escalate i _⟩
  · rw [State.source_escalate, if_pos rfl]
  · rw [State.timer_escalate, if_pos rfl]
  · rw [State.queue_escalate, hb]
    exact if_congr (Option.some_inj.trans eq_comm) rfl rfl

/-! ## Retraction (R115) -/

/-- The entry of a lost claim in the words of R115. -/
theorem ClaimEntry.lose_eq (i : SourceNo) :
    ClaimEntry.lose i = fun e => if e.source = i ∧ e.status = .held then { e with status := .retracted } else e := by
  funext e
  exact if_congr (by rw [Bool.and_eq_true, ClaimEntry.names_iff, ClaimEntry.isHeld_iff]) rfl rfl

section

variable (s : State) (p : Port) (i : SourceNo) (time : Time)

theorem State.timer_retract (j : SourceNo) :
    (s.retract p i time).timer j = if i = j then none else s.timer j := by
  unfold State.retract
  dsimp only
  rw [State.timer_follow]
  split <;> simp

/-- RETRACTED comes first, and the raise of an enabled source's count to 15 after it. -/
theorem State.queue_retract (q : Port) :
    (s.retract p i time).queue q =
      if (s.source i).binder = some q then
        (if (s.source i).enabled = true ∧ (s.source i).count = 14 then
          ((s.queue q).push ⟨.retracted, i, some p, 0#8, time⟩).push ⟨.countSaturated, i, none, 0#8, time⟩
        else (s.queue q).push ⟨.retracted, i, some p, 0#8, time⟩)
      else s.queue q := by
  unfold State.retract
  dsimp only
  rw [State.queue_follow]
  have record : (((s.markLost p i).stopTimer i).writeIncident .retracted i (some p) 0#8 time).source i = s.source i := by
    simp
  have written := State.queue_writeIncident ((s.markLost p i).stopTimer i) .retracted i (some p) 0#8 time q
  rw [State.source_stopTimer, State.source_markLost, State.queue_stopTimer, State.queue_markLost] at written
  generalize ((s.markLost p i).stopTimer i).writeIncident .retracted i (some p) 0#8 time = t at record written ⊢
  rw [record]
  by_cases enabled : (s.source i).enabled = true
  · rw [if_pos enabled, State.saturation_raiseCount _ i time q, State.source_setSource_same, State.queue_setSource,
      written]
    by_cases bound : (s.source i).binder = some q <;> simp [bound, enabled]
  · rw [if_neg enabled, State.queue_makeQuiet, written]
    simp [enabled]

theorem State.keepsOtherSources_retract : KeepsOtherSources i s (s.retract p i time) := fun j hj => by
  rw [State.source_retract, State.timer_retract, if_neg (Ne.symm hj), if_neg (Ne.symm hj)]
  exact ⟨rfl, rfl⟩

theorem State.keepsSurroundings_retract : KeepsSurroundings s (s.retract p i time) := by constructor <;> simp

theorem State.offersFollow_retract : OffersFollow s (s.retract p i time) := by
  refine State.offersFollow_follow ?_
  dsimp only
  split <;> simp

theorem State.claimList_retract (q : Port) :
    (s.retract p i time).claimList q =
      if p = q then (s.claimList p).map (ClaimEntry.lose i) else s.claimList q := by
  rw [← State.claimList_markLost, State.claimList, State.claims_retract]
  rfl

end

/-- Settles O51: the expiry is taken, and retraction reaches the claimant's list, the source, its timer and its binder's
queue alone. -/
theorem serviceExpiryRetracts : Obligations.ServiceExpiryRetracts := by
  intro i x p b s hr ht hk hd hc hb
  have taken := State.expiryOf_of_delivered hr ht hk hd
  refine ⟨_, exec_serviceExpiry_of_expiry taken hc, ?_, ?_, fun q hq => ?_, ?_, fun q => ?_,
    State.links_retract s p i _, s.keepsOtherSources_retract p i _, s.keepsSurroundings_retract p i _,
    s.offersFollow_retract p i _⟩
  · rw [State.timer_retract, if_pos rfl]
  · rw [State.claimList_retract, if_pos rfl, ClaimEntry.lose_eq]
  · rw [State.claimList_retract, if_neg (Ne.symm hq)]
  · rw [State.source_retract, if_pos rfl]
    split_ifs <;> rfl
  · rw [State.queue_retract, hb]
    by_cases hq : q = b
    · subst hq; simp
    · simp [hq, Ne.symm hq]

end Sys2Proof.Machine

/-! PROOF. READ_INCIDENT, the writing of an incident and the first two parts of a port clear (O31, O32, O33); and every step
keeps the queues within capacity, the control set non-empty and no command waiting behind none (O57). A queue changes by
records pushed, by its oldest record read or by being emptied, and each of the three keeps one queue sound. -/

namespace Sys2Proof.Machine

/-! ## One queue (R122, R125, R128, R129) -/

section

variable {q : IncidentQueue}

theorem IncidentQueue.push_of_lt (h : q.records.length < 8) (r : Incident) :
    q.push r = ⟨q.records ++ [r], q.overflow⟩ := if_pos h

theorem IncidentQueue.push_of_full (h : q.records.length = 8) (r : Incident) : q.push r = ⟨q.records, true⟩ :=
  if_neg h.not_lt

/-- At most 8 records, and the flag clear where there is none (R122, R129). -/
def IncidentQueue.Sound (q : IncidentQueue) : Prop := q.records.length ≤ 8 ∧ (q.records = [] → q.overflow = false)

theorem State.queuesSound_iff {s : State} : s.QueuesSound ↔ ∀ p, (s.queue p).Sound := Iff.rfl

namespace IncidentQueue.Sound

theorem default : IncidentQueue.default.Sound := ⟨Nat.zero_le _, fun _ => rfl⟩

/-- A full queue sets its flag, but it is not empty. -/
theorem push (h : q.Sound) (r : Incident) : (q.push r).Sound := by
  obtain ⟨hlen, -⟩ := h
  rcases hlen.lt_or_eq with room | full
  · rw [IncidentQueue.push_of_lt room]
    exact ⟨List.length_append.trans_le room, by simp⟩
  · rw [IncidentQueue.push_of_full full]
    exact ⟨hlen, fun (empty : q.records = []) => by simp [empty] at full⟩

/-- The form in which an operation writes one queue: the record goes to the source's binder alone. -/
theorem push_ite (h : q.Sound) (c : Prop) [Decidable c] (r : Incident) : (if c then q.push r else q).Sound := by
  split <;> [exact h.push r; exact h]

/-- The flag is cleared where the oldest record was the last. -/
theorem read (h : q.Sound) {r : Incident} {rest : List Incident} (hq : q.records = r :: rest) :
    IncidentQueue.Sound ⟨rest, q.overflow && !rest.isEmpty⟩ := by
  obtain ⟨hlen, -⟩ := h
  rw [hq, List.length_cons] at hlen
  exact ⟨Nat.le_of_succ_le hlen, fun (empty : rest = []) => by simp [empty]⟩

end IncidentQueue.Sound

end

/-! ## READ_INCIDENT (R128) -/

section

variable {p : Port} {s : State}

theorem takeReadIncident_of_record {r : Incident} {rest : List Incident} (hq : (s.queue p).records = r :: rest) :
    takeReadIncident p s =
      (s.setQueue p ⟨rest, (s.queue p).overflow && !rest.isEmpty⟩,
        okWith (incidentPayload r (s.queue p).overflow rest.length)) := by
  rw [takeReadIncident, hq]

theorem takeReadIncident_of_empty (hq : (s.queue p).records = []) :
    takeReadIncident p s = (s, ⟨.empty, [overflowFlags (s.queue p).overflow, 0#8]⟩) := by
  rw [takeReadIncident, hq]

theorem exec_readIncident_of_ready (hr : Ready s p (.readIncident p)) :
    exec (.readIncident p) s =
      .next ((takeReadIncident p s).1.answer p (some ((takeReadIncident p s).2.answer .readIncident)) true) :=
  congrArg Host.Outcome.next (State.ownerTakes_of_ready hr _ _)

end

theorem and_not_isEmpty {α : Type} (b : Bool) (l : List α) : (b && !l.isEmpty) = if l = [] then false else b := by
  cases l <;> simp

/-- Settles O31: the command is taken with the oldest record, or with none. -/
theorem readIncidentRemovesTheOldest : Obligations.ReadIncidentRemovesTheOldest := by
  intro p s hr
  refine ⟨fun r rest hq => ?_, fun hq => ?_⟩
  · rw [exec_readIncident_of_ready hr, takeReadIncident_of_record hq, and_not_isEmpty]
    rfl
  · rw [exec_readIncident_of_ready hr, takeReadIncident_of_empty hq]
    rfl

/-! ## Incidents written (R124, R125) -/

/-- Settles O32: the binder's queue takes the record, by the room it has. -/
theorem incidentsGoToTheBinder : Obligations.IncidentsGoToTheBinder := by
  intro s k i o d n b hb
  refine ⟨fun q hq => ?_, fun room => ?_, fun full => ?_⟩ <;> rw [State.queue_writeIncident, hb]
  · exact if_neg fun h => hq (Option.some.inj h).symm
  · rw [if_pos rfl, IncidentQueue.push_of_lt room]
  · rw [if_pos rfl, IncidentQueue.push_of_full full]

/-! ## The first two parts of a port clear (R80, R132, R147) -/

section

variable {p : Port} {s : State}

/-- A command that reaches its owner is in hand, or nothing is (log 4). -/
theorem State.inHand_of_handsOn {c : Instr} (h : s.handsOn p c = true) :
    (s.link p).inHand = none ∨ ∃ held, (s.link p).inHand = some held ∧ held.row = some c := by
  simp only [State.handsOn, Link.handsOn, Bool.and_eq_true] at h
  obtain ⟨-, -, hand⟩ := h
  cases hi : (s.link p).inHand with
  | none => exact .inl rfl
  | some held =>
    rw [hi] at hand
    exact .inr ⟨held, rfl, beq_iff_eq.1 hand⟩

/-- PORT_CLEAR stays in hand behind its first part, whether its frame brought it or its row alone. -/
theorem Link.inHand_beginClear {l : Link}
    (h : l.inHand = none ∨ ∃ held, l.inHand = some held ∧ held.row = some (.portClear p)) :
    ∃ held, (l.beginClear p).inHand = some held ∧ held.row = some (.portClear p) ∧
      (l.inHand = none ∨ l.inHand = some held) := by
  rcases h with nothing | ⟨held, inHand, row⟩
  · exact ⟨⟨.portClear, some (.portClear p), true⟩, by simp [Link.beginClear, nothing], rfl, .inl nothing⟩
  · exact ⟨held, by simp [Link.beginClear, inHand], row, .inr inHand⟩

theorem exec_portClear_of_ready (hr : Ready s p (.portClear p)) :
    exec (.portClear p) s =
      .next ((s.setQueue p IncidentQueue.default).setLink p ((s.link p).beginClear p)) := by
  obtain ⟨hands, active⟩ := hr
  exact congrArg Host.Outcome.next ((if_pos hands).trans (if_pos (State.passes_of_active active _)))

theorem exec_portClearOfferUnitPart_of_next (hh : s.inHold = false) (hc : (s.link p).clearing = .offerUnitNext) :
    exec (.portClearOfferUnitPart p) s =
      .next ((s.clearOffers p).setLink p { s.link p with clearing := .sourceTableNext }) :=
  congrArg Host.Outcome.next (if_pos (by simp [hh, hc]))

end

section

variable (s : State) (p : Port)

theorem State.setOffer_setOffer (o o' : OfferPort) : (s.setOffer p o).setOffer p o' = s.setOffer p o' :=
  congrArg (fun offers => { s with offers }) (Vector.set_set ..)

/-- The attention line is not what a top derives from, so the top it is set by is still the top. -/
theorem State.top_clearOffers : (s.clearOffers p).top = (s.setOffer p OfferPort.default).top :=
  State.top_congr rfl rfl fun q => by
    simp only [State.clearOffers, State.offer_setOffer]
    split <;> rfl

theorem State.offer_clearOffers :
    (s.clearOffers p).offer p = { OfferPort.default with attention := ((s.clearOffers p).top p).isSome } := by
  rw [State.top_clearOffers]
  exact State.offer_setOffer_same _ _ _

theorem State.clearOffers_eq : s.clearOffers p = s.setOffer p ((s.clearOffers p).offer p) := by
  rw [State.offer_clearOffers, State.top_clearOffers]
  exact s.setOffer_setOffer p _ _

end

/-- Settles O33: each part is taken and leaves the part with one queue, or one port's offers, at its reset values. -/
theorem portClearFirstParts : Obligations.PortClearFirstParts := by
  intro p s
  refine ⟨fun hr => ⟨_, exec_portClear_of_ready hr, ?_⟩,
    fun hh hc => ⟨_, exec_portClearOfferUnitPart_of_next hh hc, ?_⟩⟩
  · rw [State.link_setLink_same]
    exact ⟨rfl, rfl, Link.inHand_beginClear (State.inHand_of_handsOn hr.1), rfl⟩
  · have top : ((s.clearOffers p).setLink p { s.link p with clearing := .sourceTableNext }).top = (s.clearOffers p).top :=
      State.top_congr rfl rfl fun _ => rfl
    rw [top, State.offer_setLink, ← State.clearOffers_eq, State.offer_clearOffers]
    exact ⟨rfl, rfl, rfl, rfl, Option.isSome_iff_exists⟩

/-! ## The queues of the part -/

namespace State.QueuesSound

variable {s t : State} (h : s.QueuesSound)

include h

theorem queue (p : Port) : (s.queue p).Sound := State.queuesSound_iff.1 h p

theorem of_eq (hq : t.queues = s.queues) : t.QueuesSound :=
  State.queuesSound_iff.2 fun q => by rw [State.queue, hq]; exact h q

theorem setQueue (p : Port) {x : IncidentQueue} (hx : x.Sound) : (s.setQueue p x).QueuesSound :=
  State.queuesSound_iff.2 fun q => by
    rw [State.queue_setQueue]
    split <;> [exact hx; exact h q]

theorem writeIncident (k : IncidentKind) (i : SourceNo) (o : Option Port) (d : Byte) (n : Time) :
    (s.writeIncident k i o d n).QueuesSound :=
  State.queuesSound_iff.2 fun q => by
    rw [State.queue_writeIncident]
    exact (h.queue q).push_ite _ _

theorem raiseCount (i : SourceNo) (n : Time) : (s.raiseCount i n).QueuesSound :=
  State.queuesSound_iff.2 fun q => by
    rw [State.saturation_raiseCount s i n q]
    exact (h.queue q).push_ite _ _

theorem takeEvent (i : SourceNo) : (s.takeEvent i).QueuesSound := by
  unfold State.takeEvent
  split
  · exact h.of_eq (by simp)
  all_goals exact h.raiseCount i _

theorem returnClaim (i : SourceNo) : (s.returnClaim i).QueuesSound :=
  State.queuesSound_iff.2 fun q => by
    rw [State.queue_returnClaim]
    exact (h.queue q).push_ite _ _

theorem deferClaim (p : Port) (i : SourceNo) : (s.deferClaim p i).QueuesSound :=
  State.queuesSound_iff.2 fun q => by
    rw [State.queue_deferClaim]
    exact (h.queue q).push_ite _ _

theorem returnSource (p : Port) (i : SourceNo) : (s.returnSource p i).QueuesSound :=
  (h.of_eq (by simp) : (s.setBorrower i none).QueuesSound).writeIncident _ _ _ _ _

theorem enableSource (i : SourceNo) : (s.enableSource i).QueuesSound := by
  have enabled : (s.setSource i { s.source i with enabled := true }).QueuesSound := h
  unfold State.enableSource
  dsimp only
  split
  · exact h
  · refine State.QueuesSound.of_eq (s := if _ then _ else _) ?_ (State.queues_follow _ _)
    split <;> [exact enabled.takeEvent i; exact enabled]

theorem disableSource (i : SourceNo) : (s.disableSource i).QueuesSound := by
  unfold State.disableSource
  dsimp only
  split
  · split
    case h_1 | h_4 => exact h
    all_goals exact (h.of_eq rfl : State.QueuesSound ((s.setSource i _).stopTimer i)).writeIncident _ _ _ _ _
  · exact h

theorem takeChange (n : LineNo) (e : Edge) (rest : List Edge) : (s.takeChange n e rest).QueuesSound := by
  have changed : (s.setLine n { s.line n with qualified := e.level, reports := rest }).QueuesSound := h
  unfold State.takeChange
  dsimp only
  split
  · exact (changed.takeEvent (sourceOf n)).of_eq (by simp)
  · exact changed

theorem escalate (i : SourceNo) (time : Time) : (s.escalate i time).QueuesSound :=
  State.queuesSound_iff.2 fun q => by
    rw [State.queue_escalate]
    exact (h.queue q).push_ite _ _

theorem retract (p : Port) (i : SourceNo) (time : Time) : (s.retract p i time).QueuesSound :=
  State.queuesSound_iff.2 fun q => by
    rw [State.queue_retract]
    split
    · split <;> [exact ((h.queue q).push _).push _; exact (h.queue q).push _]
    · exact h q

theorem releaseEntry (p : Port) (e : ClaimEntry) : (State.releaseEntry p s e).QueuesSound := by
  unfold State.releaseEntry
  split <;> [exact (h.writeIncident _ _ _ _ _).returnClaim _; exact h]

theorem endLoan (p : Port) (i : SourceNo) : (State.endLoan p s i).QueuesSound := by
  unfold State.endLoan
  split
  · exact (h.of_eq rfl : (s.setSource i _).QueuesSound).writeIncident _ _ _ _ _
  · exact h

theorem clearTable (p : Port) : (s.clearTable p).QueuesSound := by
  have released : (s.releaseClaims p).QueuesSound :=
    List.foldlRecOn (motive := State.QueuesSound) _ (State.releaseEntry p) h fun _ ht e _ => ht.releaseEntry p e
  refine State.QueuesSound.of_eq (s := (s.releaseClaims p).endLoans p) ?_ (State.queues_follow _ _)
  unfold State.endLoans
  generalize List.finRange 96 = l
  exact List.foldlRecOn (motive := State.QueuesSound) l (State.endLoan p) released fun _ ht i _ => ht.endLoan p i

end State.QueuesSound

theorem State.queuesSound_clear (s : State) (t : Settings) (power : PowerState) : (s.clear t power).QueuesSound :=
  State.queuesSound_iff.2 fun p => by
    have empty : (s.clear t power).queue p = IncidentQueue.default := by simp [State.clear, State.queue, Table.at]
    rw [empty]
    exact .default

/-- Every operation of the commands keeps the queues sound. -/
theorem keptByOperations_queuesSound : KeptByOperations State.QueuesSound where
  pending _ _ h := h
  setLink _ _ _ h _ := h
  setLine _ _ _ h _ := h
  top _ _ h _ := h
  threshold _ _ _ h _ := h
  claim _ _ _ h _ _ _ := h.of_eq (by simp)
  complete _ _ _ _ h _ _ _ := h.of_eq (by simp)
  lost _ _ _ h _ := h
  defer _ p i _ h _ _ _ := h.deferClaim p i
  post _ i h _ _ := h.takeEvent i
  bind _ _ _ h _ _ := h
  unbind _ _ h _ _ := h.of_eq (by simp)
  lend _ _ _ _ h _ _ _ := h
  recallLoan _ _ h _ := h
  returnLoan _ p i h _ := h.returnSource p i
  priority _ _ _ _ h _ _ := h
  group _ _ _ _ h _ _ := h
  trigger _ _ _ _ h _ _ _ := h
  qualify _ _ _ _ h _ _ _ := h.of_eq (by simp [State.writeQualify])
  waitLimit _ _ _ _ h _ _ := h
  serviceLimit _ _ _ _ h _ _ := h
  fallback _ _ _ _ h _ _ := h
  posters _ _ _ _ h _ _ _ := h
  enable _ _ i h _ _ := h.enableSource i
  disable _ _ i h _ _ := h.disableSource i
  readIncident _ p _ _ h _ hq := h.setQueue p ((h.queue p).read hq)
  emptyQueue _ p h _ := h.setQueue p .default
  clearOffers _ _ h _ := h
  clearTable _ p h _ := h.clearTable p
  settings _ _ h _ _ := h
  watch _ h _ _ _ := h
  startWaking _ h _ := h
  wakingEnd _ h _ := h
  clear s t power _ _ _ := s.queuesSound_clear t power
  pins _ _ _ h := h
  hold _ _ h _ := h
  takeChange _ n e rest h _ := h.takeChange n e rest
  wakeReports _ _ h := h
  deliver _ _ _ h _ := h
  deliverReached _ h := h
  stopTimer _ _ h := h
  escalate _ i time h _ _ := h.escalate i time
  retract _ p i time h _ _ := h.retract p i time
  enterActive _ h _ _ := h
  enterFailed _ _ h _ _ := h
  counters _ _ _ _ h _ := h

/-! ## The settings page and the Link Interfaces -/

/-- A property of the settings page and the Link Interfaces alone is kept by every operation, where the operations that
write them keep it: no other operation touches them. -/
theorem keptByOperations_of_settings_links {P : State → Prop}
    (congr : ∀ {s t : State}, P s → t.settings = s.settings → t.links = s.links → P t)
    (setLink : ∀ s p l, P s → LinkMove s p l → P (s.setLink p l))
    (settings : ∀ s t, P s → t.controlSet = s.settings.controlSet ∨ t.controlSet ≠ 0#4 → P { s with settings := t })
    (clear : ∀ s t power, P s → t.controlSet = s.settings.controlSet ∨ t.controlSet ≠ 0#4 → P (s.clear t power)) :
    KeptByOperations P where
  pending _ _ h := congr h rfl rfl
  setLink := setLink
  setLine _ _ _ h _ := congr h rfl rfl
  top _ _ h _ := congr h rfl rfl
  threshold _ _ _ h _ := congr h rfl rfl
  claim _ _ _ h _ _ _ := congr h (by simp) (by simp)
  complete _ _ _ _ h _ _ _ := congr h (by simp) (by simp)
  lost _ _ _ h _ := congr h rfl rfl
  defer _ _ _ _ h _ _ _ := congr h (by simp) (by simp)
  post _ _ h _ _ := congr h (by simp) (by simp)
  bind _ _ _ h _ _ := congr h rfl rfl
  unbind _ _ h _ _ := congr h (by simp) (by simp)
  lend _ _ _ _ h _ _ _ := congr h rfl rfl
  recallLoan _ _ h _ := congr h rfl rfl
  returnLoan _ _ _ h _ := congr h (by simp) (by simp)
  priority _ _ _ _ h _ _ := congr h rfl rfl
  group _ _ _ _ h _ _ := congr h rfl rfl
  trigger _ _ _ _ h _ _ _ := congr h rfl rfl
  qualify _ _ _ _ h _ _ _ := congr h (by simp [State.writeQualify]) (by simp [State.writeQualify])
  waitLimit _ _ _ _ h _ _ := congr h rfl rfl
  serviceLimit _ _ _ _ h _ _ := congr h rfl rfl
  fallback _ _ _ _ h _ _ := congr h rfl rfl
  posters _ _ _ _ h _ _ _ := congr h rfl rfl
  enable _ _ _ h _ _ := congr h (by simp) (by simp)
  disable _ _ _ h _ _ := congr h (by simp) (by simp)
  readIncident _ _ _ _ h _ _ := congr h rfl rfl
  emptyQueue _ _ h _ := congr h rfl rfl
  clearOffers _ _ h _ := congr h rfl rfl
  clearTable s p h _ := congr h (s.keepsSurroundings_clearTable p).settings (s.links_clearTable p)
  settings s t h _ := settings s t h
  watch _ h _ _ _ := congr h rfl rfl
  startWaking _ h _ := congr h rfl rfl
  wakingEnd _ h _ := congr h rfl rfl
  clear s t power h ht _ := clear s t power h ht
  pins _ _ _ h := congr h rfl rfl
  hold _ _ h _ := congr h rfl rfl
  takeChange _ _ _ _ h _ := congr h (by simp) (by simp)
  wakeReports _ _ h := congr h rfl rfl
  deliver _ _ _ h _ := congr h rfl rfl
  deliverReached _ h := congr h rfl rfl
  stopTimer _ _ h := congr h rfl rfl
  escalate _ _ _ h _ _ := congr h (by simp) (by simp)
  retract _ _ _ _ h _ _ := congr h (by simp) (by simp)
  enterActive _ h _ _ := congr h rfl rfl
  enterFailed s b h _ _ := by
    refine congr (s := { s with settings := (s.enterFailed b).settings }) (settings s _ h ?_) rfl rfl
    cases b <;> [exact .inl rfl; exact .inr freshNonempty]
  counters _ _ _ _ h _ := congr h rfl rfl

/-- Every operation of the commands keeps the control set non-empty (R166). -/
theorem keptByOperations_controlSetNonempty : KeptByOperations State.ControlSetNonempty :=
  have written {s : State} {t : Settings} (h : s.ControlSetNonempty)
      (ht : t.controlSet = s.settings.controlSet ∨ t.controlSet ≠ 0#4) : t.controlSet ≠ 0#4 :=
    ht.elim (fun same => same ▸ h) id
  keptByOperations_of_settings_links (fun h hs _ => by rwa [State.ControlSetNonempty, hs]) (fun _ _ _ h _ => h)
    (fun _ _ h => written h) (fun _ _ _ h => written h)

/-- Every operation of the commands keeps a waiting command behind a command in hand (R139). -/
theorem keptByOperations_linksSound : KeptByOperations State.LinksSound := by
  refine keptByOperations_of_settings_links (fun h _ hl q => ?_) (fun s p l h move q => ?_) (fun _ _ h _ => h)
    (fun s t power _ _ q => ?_)
  · rw [State.link, hl]
    exact h q
  · rw [State.link_setLink]
    split <;> [exact move.waiting (h p); exact h q]
  · rw [State.link_clear]
    exact fun _ => rfl

/-- Settles O57: each of the three is kept by every step, since every operation of the commands keeps it. -/
theorem stepKeepsQueuesControlSetAndLinks : Obligations.StepKeepsQueuesControlSetAndLinks := fun _ _ hs =>
  ⟨(keptByOperations_queuesSound.step · hs), (keptByOperations_controlSetNonempty.step · hs),
    (keptByOperations_linksSound.step · hs)⟩

end Sys2Proof.Machine

/-! PROOF. The command frames (O4, O5). A whole frame parses into its four parts and no others, a code byte has one code, and
the arguments of a code name one row, so that what decodes to a command is exactly what begins with its frame. -/

namespace Sys2Proof

/-! ## Numbers of two bytes (R149) -/

theorem halfOf_extractLsb' (v : Half) : halfOf (v.extractLsb' 8 8) (v.extractLsb' 0 8) = v :=
  (BitVec.extractLsb'_append_extractLsb'_eq_extractLsb' rfl).trans BitVec.extractLsb'_eq_self

theorem halfBytes_halfOf (high low : Byte) : halfBytes (halfOf high low) = [high, low] :=
  congrArg₂ (fun h l => [h, l]) BitVec.extractLsb'_append_eq_left BitVec.extractLsb'_append_eq_right

/-- A byte is spelt by its number. -/
theorem byte_eq_ofNat {b : Byte} {n : Nat} (h : b.toNat = n) : b = BitVec.ofNat 8 n := by
  rw [← h, BitVec.ofNat_toNat, BitVec.setWidth_eq]

/-! ## The arguments of a code (R137, R150) -/

section

variable {c d : Instr} {args : List Byte}

theorem takingNone_eq_row_iff : takingNone c args = .row d ↔ args = [] ∧ c = d := by
  cases args <;> simp [takingNone]

theorem takingNone_eq_wrongLength_iff : takingNone c args = .wrongLength ↔ args.length ≠ 0 := by
  cases args <;> simp [takingNone]

theorem takingOne_eq_row_iff {c : Byte → Instr} : takingOne c args = .row d ↔ ∃ x, args = [x] ∧ c x = d := by
  unfold takingOne
  split <;> simp_all

theorem takingOne_eq_wrongLength_iff {c : Byte → Instr} : takingOne c args = .wrongLength ↔ args.length ≠ 1 := by
  unfold takingOne
  split <;> simp

theorem takingTwo_eq_row_iff {c : Byte → Byte → Instr} :
    takingTwo c args = .row d ↔ ∃ x y, args = [x, y] ∧ c x y = d := by
  unfold takingTwo
  split <;> simp

theorem takingTwo_eq_wrongLength_iff {c : Byte → Byte → Instr} : takingTwo c args = .wrongLength ↔ args.length ≠ 2 := by
  unfold takingTwo
  split <;> simp

theorem takingSetting_eq_row_iff {p : Port} :
    takingSetting p args = .row d ↔ ∃ i h l, args = [i, h, l] ∧ writeSettingRow p i (halfOf h l) = .row d := by
  unfold takingSetting
  split <;> simp

theorem writeSettingRow_ne_wrongLength (p : Port) (i : Byte) (v : Half) : writeSettingRow p i v ≠ .wrongLength := by
  unfold writeSettingRow
  split <;> simp

theorem takingSetting_eq_wrongLength_iff {p : Port} : takingSetting p args = .wrongLength ↔ args.length ≠ 3 := by
  unfold takingSetting
  split <;> simp [writeSettingRow_ne_wrongLength]

theorem takingField_eq_row_iff {p : Port} :
    takingField p args = .row d ↔ ∃ s f h l, args = [s, f, h, l] ∧ configureRow p s f (halfOf h l) = .row d := by
  unfold takingField
  split <;> simp

theorem configureRow_ne_wrongLength (p : Port) (s f : Byte) (v : Half) : configureRow p s f v ≠ .wrongLength := by
  unfold configureRow
  split <;> simp

theorem takingField_eq_wrongLength_iff {p : Port} : takingField p args = .wrongLength ↔ args.length ≠ 4 := by
  unfold takingField
  split <;> simp [configureRow_ne_wrongLength]

end

/-- A setting identifier names one row, and that row's frame carries it. -/
theorem hostForm_of_writeSettingRow {p : Port} {i : Byte} {v : Half} {c : Instr} (h : writeSettingRow p i v = .row c) :
    c.hostForm = some (p, .writeSetting, i :: halfBytes v) := by
  unfold writeSettingRow at h
  split at h <;> cases h <;> rw [byte_eq_ofNat (b := i) ‹_›] <;> rfl

/-- A field identifier names one row, and that row's frame carries it. -/
theorem hostForm_of_configureRow {p : Port} {s f : Byte} {v : Half} {c : Instr} (h : configureRow p s f v = .row c) :
    c.hostForm = some (p, .configure, s :: f :: halfBytes v) := by
  unfold configureRow at h
  split at h <;> cases h <;> rw [byte_eq_ofNat (b := f) ‹_›] <;> rfl

theorem hostForm_of_decodeCommand {p : Port} {code : HostCode} {args : List Byte} {c : Instr}
    (h : decodeCommand p code args = .row c) : c.hostForm = some (p, code, args) := by
  cases code
  case configure =>
    obtain ⟨s, f, high, low, rfl, row⟩ := takingField_eq_row_iff.1 h
    simpa only [halfBytes_halfOf] using hostForm_of_configureRow row
  case writeSetting =>
    obtain ⟨i, high, low, rfl, row⟩ := takingSetting_eq_row_iff.1 h
    simpa only [halfBytes_halfOf] using hostForm_of_writeSettingRow row
  case setThreshold =>
    obtain ⟨high, low, rfl, rfl⟩ := takingTwo_eq_row_iff.1 h
    simp only [Instr.hostForm, halfBytes_halfOf]
  case lend =>
    obtain ⟨s, q, rfl, rfl⟩ := takingTwo_eq_row_iff.1 h
    rfl
  case claim | complete | defer | post | bind | unbind | readSource | enable | disable | recallLoan | returnLoan |
      readSetting =>
    obtain ⟨x, rfl, rfl⟩ := takingOne_eq_row_iff.1 h
    rfl
  all_goals
    obtain ⟨rfl, rfl⟩ := takingNone_eq_row_iff.1 h
    rfl

/-- The arguments of a code name a row exactly where they are what that row is sent with. -/
theorem decodeCommand_eq_row_iff {p : Port} {code : HostCode} {args : List Byte} {c : Instr} :
    decodeCommand p code args = .row c ↔ c.hostForm = some (p, code, args) := by
  refine ⟨hostForm_of_decodeCommand, fun h => ?_⟩
  cases c
  case setThreshold | configurePriority | configureGroup | configureTrigger | configureQualify | configureWaitLimit |
      configureServiceLimit | configureFallback | configurePosters | writeSettingControlSet |
      writeSettingWatchHoldGroupMask | writeSettingWatchHoldSegmentMask | writeSettingLastResetCause =>
    cases h
    simp [decodeCommand, takingTwo, takingField, takingSetting, configureRow, writeSettingRow, halfBytes,
      halfOf_extractLsb']
  all_goals cases h
  all_goals rfl

/-- The length test of R137. -/
theorem decodeCommand_eq_wrongLength_iff {p : Port} {code : HostCode} {args : List Byte} :
    decodeCommand p code args = .wrongLength ↔ args.length ≠ code.argLength := by
  cases code
  case configure => exact takingField_eq_wrongLength_iff
  case writeSetting => exact takingSetting_eq_wrongLength_iff
  case setThreshold | lend => exact takingTwo_eq_wrongLength_iff
  case claim | complete | defer | post | bind | unbind | readSource | enable | disable | recallLoan | returnLoan |
      readSetting => exact takingOne_eq_wrongLength_iff
  all_goals exact takingNone_eq_wrongLength_iff

theorem length_of_hostForm {p : Port} {code : HostCode} {args : List Byte} {c : Instr}
    (h : c.hostForm = some (p, code, args)) : args.length = code.argLength := by
  by_contra wrong
  have row := decodeCommand_eq_row_iff.2 h
  rw [decodeCommand_eq_wrongLength_iff.2 wrong] at row
  cases row

theorem HostCode.ofByte_eq_some_iff {b : Byte} {code : HostCode} : HostCode.ofByte b = some code ↔ code.byte = b := by
  constructor
  · intro h
    simpa using List.find?_some h
  · rintro rfl
    cases code <;> rfl

/-! ## The parts of a frame (R135, R136) -/

/-- A frame is complete with its check byte: as many argument bytes as its length byte counts stand before it, and what
follows belongs to no frame. -/
theorem parseFrame_eq_some_iff {bytes : List Byte} {f : Frame} :
    parseFrame bytes = some f ↔
      f.args.length = f.length.toNat ∧ ∃ tail, bytes = f.code :: f.length :: (f.args ++ f.check :: tail) := by
  constructor
  · intro h
    unfold parseFrame at h
    split at h
    · rename_i code length rest
      split at h
      · rename_i check tail hdrop
        cases h
        have room : length.toNat < rest.length := by
          by_contra short
          rw [List.drop_eq_nil_of_le (Nat.le_of_not_lt short)] at hdrop
          cases hdrop
        exact ⟨List.length_take_of_le room.le, tail, by rw [← hdrop, List.take_append_drop]⟩
      · cases h
    · cases h
  · rintro ⟨hlen, tail, rfl⟩
    simp only [parseFrame, List.drop_left' hlen, List.take_left' hlen]

theorem toNat_argLength (code : HostCode) : (BitVec.ofNat 8 code.argLength).toNat = code.argLength := by
  cases code <;> rfl

theorem isWholeFrame_frameOf {code : HostCode} {args : List Byte} (h : args.length = code.argLength) :
    isWholeFrame (frameOf code args) = true := by
  simp only [frameOf, isWholeFrame, List.cons_append, h, toNat_argLength, List.length_append, List.length_singleton,
    beq_self_eq_true]

/-- A command's own frame, whatever follows it, is parsed into that command's code and arguments with a right check byte. -/
theorem parseFrame_frameOf_append {code : HostCode} {args : List Byte} (h : args.length = code.argLength)
    (tail : List Byte) :
    parseFrame (frameOf code args ++ tail) =
      some ⟨code.byte, BitVec.ofNat 8 args.length, args, crc8 (code.byte :: BitVec.ofNat 8 args.length :: args)⟩ :=
  parseFrame_eq_some_iff.2 ⟨by rw [h, toNat_argLength], tail, by simp [frameOf]⟩

/-- A complete frame with a right check byte is the frame of its code and arguments, and bytes after it. -/
theorem frameOf_prefix {bytes : List Byte} {f : Frame} {code : HostCode} (hf : parseFrame bytes = some f)
    (hcheck : f.checkRight = true) (hcode : code.byte = f.code) : frameOf code f.args <+: bytes := by
  obtain ⟨hlen, tail, rfl⟩ := parseFrame_eq_some_iff.1 hf
  have length_byte : BitVec.ofNat 8 f.args.length = f.length := (byte_eq_ofNat hlen.symm).symm
  refine ⟨tail, ?_⟩
  simp [frameOf, hcode, length_byte, beq_iff_eq.1 hcheck]

/-! ## Decoding -/

theorem decode_eq_some_iff {p : Port} {bytes : List Byte} {c : Instr} :
    decode p bytes = some c ↔ ∃ f code, parseFrame bytes = some f ∧ f.checkRight = true ∧
      HostCode.ofByte f.code = some code ∧ decodeCommand p code f.args = .row c := by
  unfold decode
  (repeat' split) <;> simp_all

/-- Bytes name a command exactly where they begin with that command's frame. -/
theorem decode_eq_some_iff_frameOf_prefix {p : Port} {bytes : List Byte} {c : Instr} :
    decode p bytes = some c ↔ ∃ code args, c.hostForm = some (p, code, args) ∧ frameOf code args <+: bytes := by
  rw [decode_eq_some_iff]
  constructor
  · rintro ⟨f, code, hf, hcheck, hcode, row⟩
    exact ⟨code, f.args, decodeCommand_eq_row_iff.1 row, frameOf_prefix hf hcheck (HostCode.ofByte_eq_some_iff.1 hcode)⟩
  · rintro ⟨code, args, host, tail, rfl⟩
    exact ⟨_, code, parseFrame_frameOf_append (length_of_hostForm host) tail, beq_self_eq_true _,
      HostCode.ofByte_eq_some_iff.2 rfl, decodeCommand_eq_row_iff.2 host⟩

theorem encode_of_hostForm {p : Port} {code : HostCode} {args : List Byte} {c : Instr}
    (h : c.hostForm = some (p, code, args)) : encode c = some (frameOf code args) := by
  rw [encode, h]

/-- Settles O4: bytes name a command exactly where they begin with its frame. -/
theorem commandFramesRoundTrip : Obligations.CommandFramesRoundTrip :=
  ⟨fun _ _ code args host => ⟨frameOf code args, encode_of_hostForm host, rfl,
      isWholeFrame_frameOf (length_of_hostForm host),
      decode_eq_some_iff_frameOf_prefix.2 ⟨code, args, host, List.prefix_rfl⟩⟩,
    fun _ _ _ => decode_eq_some_iff_frameOf_prefix.1⟩

theorem frameOf_status : frameOf .status [] = [0x01#8, 0x00#8, 0x15#8] := by decide +kernel

/-- Settles O5: the worked bytes are computed, the STATUS frame is decoded by the round trip, and an answer's wire form is
its definition. -/
theorem workedCheckBytes : Obligations.WorkedCheckBytes := by
  have status (p : Port) : (Instr.status p).hostForm = some (p, .status, []) := rfl
  refine ⟨by decide +kernel, by decide +kernel, by decide +kernel, by decide +kernel, fun p => ?_, fun p => ?_,
    by decide +kernel, fun _ => rfl⟩
  · rw [encode_of_hostForm (status p), frameOf_status]
  · rw [← frameOf_status]
    exact decode_eq_some_iff_frameOf_prefix.2 ⟨_, _, status p, List.prefix_rfl⟩

end Sys2Proof

/-! PROOF. The serial ports (O6, O7, O40 to O45). An answer that goes out, a frame that is judged and the command that settles
behind it are each said once for the Link Interface, and every host command is said once to be refused, taken, or without
effect. -/

namespace Sys2Proof.Machine

/-! ## The answer to the command in hand (R140, R144) -/

section

variable {l : Link} {h w : Held} {power : PowerState} {code : HostCode}

theorem PowerState.refusal_of_ne_dormant (awake : power ≠ .dormant) :
    power.refusal = some (if power = .watch then .asleep else .notReady) := by
  cases power
  case dormant => exact absurd rfl awake
  all_goals rfl

theorem Link.send_of_open (inHand : l.inHand = some h) (isOpen : h.isOpen = true) (processing : l.transaction = .processing)
    (a : Option Answer) :
    l.send a = { l with
      transaction := if a.isSome then .answering else .draining, answerFrame := a, inHand := l.waiting, waiting := none } := by
  simp [Link.send, Link.answerWanted, inHand, isOpen, processing]

theorem Link.send_of_closed (inHand : l.inHand = some h) (closed : h.isOpen = false) (a : Option Answer) :
    l.send a = { l with inHand := l.waiting, waiting := none } := by
  simp [Link.send, Link.answerWanted, inHand, closed]

/-- The Link Interface with its answer sent, and kept where it is an owner's, before the next command settles. -/
def Link.answered (l : Link) (a : Answer) (kept : Bool) : Link :=
  { l.send (some a) with repeatStore := if kept then some a else l.repeatStore }

theorem Link.finish_eq_settle_answered (l : Link) (power : PowerState) (a : Answer) (kept : Bool) :
    l.finish power (some a) kept = (l.answered a kept).settle power := by
  cases kept <;> rfl

theorem Link.answered_of_closed (inHand : l.inHand = some h) (closed : h.isOpen = false) (a : Answer) (kept : Bool) :
    l.answered a kept = { l with
      inHand := l.waiting, waiting := none, repeatStore := if kept then some a else l.repeatStore } := by
  rw [Link.answered, Link.send_of_closed inHand closed]

/-- What a waiting command is answered goes out in its own transaction, which the answer before it left alone. -/
theorem Link.send_answered_of_open (inHand : l.inHand = some h) (closed : h.isOpen = false) (waiting : l.waiting = some w)
    (isOpen : w.isOpen = true) (processing : l.transaction = .processing) (a : Answer) (kept : Bool) (b : Option Answer) :
    ((l.answered a kept).send b).transaction = (if b.isSome then .answering else .draining) ∧
      ((l.answered a kept).send b).answerFrame = b := by
  have untouched : (l.answered a kept).transaction = .processing := by
    rw [Link.answered_of_closed inHand closed]
    exact processing
  rw [Link.send_of_open (l := l.answered a kept) waiting isOpen untouched]
  exact ⟨rfl, rfl⟩

/-! ## A command in hand without a row (R10, R168, log 6) -/

theorem Link.settle_of_row (row : ∀ w, l.inHand = some w → w.row ≠ none) : l.settle power = l := by
  unfold Link.settle
  split
  · rename_i held inHand
    exact if_neg fun none_row => row held inHand (Option.isNone_iff_eq_none.1 none_row)
  · rfl

theorem Link.settle_of_noRow (inHand : l.inHand = some w) (noRow : w.row = none) :
    l.settle power = l.refuseIdentifier power w.code := by
  simp [Link.settle, inHand, noRow]

theorem Link.refuseIdentifier_of_passes (passes : power.passes code = true) :
    l.refuseIdentifier power code =
      { l.send (some ⟨code.byte, .badArgument, []⟩) with repeatStore := some ⟨code.byte, .badArgument, []⟩ } :=
  if_pos passes

theorem Link.refuseIdentifier_of_refused (refused : power.passes code = false) :
    l.refuseIdentifier power code = l.send (power.refusal.map fun r => ⟨code.byte, r, []⟩) :=
  if_neg (Bool.eq_false_iff.1 refused)

theorem Link.hand_refuseIdentifier (l : Link) (power : PowerState) (code : HostCode) :
    (l.refuseIdentifier power code).inHand = l.waiting ∧ (l.refuseIdentifier power code).waiting = none ∧
      (l.refuseIdentifier power code).clearing = l.clearing := by
  unfold Link.refuseIdentifier
  split <;> exact ⟨rfl, rfl, rfl⟩

theorem Link.refuseIdentifier_of_closed (inHand : l.inHand = some h) (closed : h.isOpen = false) :
    (l.refuseIdentifier power code).transaction = l.transaction ∧
      (l.refuseIdentifier power code).answerFrame = l.answerFrame := by
  unfold Link.refuseIdentifier
  split <;> simp [Link.keep, Link.send_of_closed inHand closed]

end

/-- Settles O43: the answer goes out and is kept, and the waiting command then settles, which changes nothing where it has a
row and refuses its identifier where it has none. -/
theorem answersGoOutAndAreKept : Obligations.AnswersGoOutAndAreKept := by
  intro l power a h inHand
  refine ⟨fun row => ?_, fun w kept waiting noRow => ?_⟩
  · have finished (kept : Bool) : l.finish power (some a) kept = l.answered a kept :=
      (l.finish_eq_settle_answered power a kept).trans (Link.settle_of_row row)
    simp only [finished]
    refine ⟨rfl, rfl, fun kept => ⟨rfl, rfl, rfl, fun isOpen processing => ?_, fun closed => ?_⟩⟩
    · rw [Link.answered, Link.send_of_open inHand isOpen processing]
      exact ⟨rfl, rfl⟩
    · rw [Link.answered_of_closed inHand closed]
      exact ⟨rfl, rfl⟩
  · have finished : l.finish power (some a) kept = (l.answered a kept).refuseIdentifier power w.code :=
      (l.finish_eq_settle_answered power a kept).trans (Link.settle_of_noRow waiting noRow)
    obtain ⟨hand, wait, clearing⟩ := (l.answered a kept).hand_refuseIdentifier power w.code
    rw [finished]
    refine ⟨hand, wait, clearing, fun passes => ?_, fun refused => ?_, fun closed isOpen processing => ⟨fun passes => ?_,
      fun refused => ?_⟩, fun closed waitingClosed => ?_⟩
    · rw [Link.refuseIdentifier_of_passes passes]
    · rw [Link.refuseIdentifier_of_refused refused]
      rfl
    · rw [Link.refuseIdentifier_of_passes passes]
      exact Link.send_answered_of_open inHand closed waiting isOpen processing a kept _
    · rw [Link.refuseIdentifier_of_refused refused]
      obtain ⟨transaction, frame⟩ := Link.send_answered_of_open inHand closed waiting isOpen processing a kept
        (power.refusal.map fun r => ⟨w.code.byte, r, []⟩)
      rw [transaction, frame]
      by_cases dormant : power = .dormant
      · subst dormant
        exact ⟨rfl, rfl⟩
      · simp [PowerState.refusal_of_ne_dormant dormant, dormant]
    · rw [Link.answered_of_closed inHand closed]
      exact Link.refuseIdentifier_of_closed waiting waitingClosed

/-! ## A completed frame (R137, R138, R139) -/

section

variable {l : Link} {p : Port} {power : PowerState} {f : Frame} {code : HostCode}

theorem Link.handOver_of_nothing (inHand : l.inHand = none) (row : Option Instr) :
    l.handOver power code row =
      { l with transaction := .processing, inHand := some ⟨code, row, true⟩ }.settle power := by
  unfold Link.handOver
  split <;> simp_all

theorem Link.handOver_of_waits (inHand : l.inHand ≠ none) (waiting : l.waiting = none) (row : Option Instr) :
    l.handOver power code row = { l with transaction := .processing, waiting := some ⟨code, row, true⟩ } := by
  unfold Link.handOver
  split <;> simp_all

theorem Link.handOver_of_full (inHand : l.inHand ≠ none) (waiting : l.waiting ≠ none) (row : Option Instr) :
    l.handOver power code row = l.discard := by
  unfold Link.handOver
  split <;> simp_all

/-- A frame handed on with nothing in hand: its command is in hand, or its identifier is refused. -/
theorem Link.handOver_of_nothing_of_passes (inHand : l.inHand = none) (passes : power.passes code = true)
    (row : Option Instr) :
    l.handOver power code row =
      if row = none then
        { l with
          transaction := .answering, waiting := none
          answerFrame := some ⟨code.byte, .badArgument, []⟩, repeatStore := some ⟨code.byte, .badArgument, []⟩
          inHand := l.waiting }
      else { l with transaction := .processing, inHand := some ⟨code, row, true⟩ } := by
  rw [Link.handOver_of_nothing inHand]
  cases row with
  | none => rw [Link.settle_of_noRow rfl rfl, Link.refuseIdentifier_of_passes passes, Link.send_of_open rfl rfl rfl]; rfl
  | some c => exact Link.settle_of_row fun w hw => by cases hw; simp

variable (awake : power ≠ .dormant)

include awake

theorem Link.judgeFrame_of_badCheck (check : f.checkRight = false) :
    l.judgeFrame p power f = l.refuseFrame f.code .badCheck := by
  simp [Link.judgeFrame, awake, check]

theorem Link.judgeFrame_of_unknown (check : f.checkRight = true) (unknown : HostCode.ofByte f.code = none) :
    l.judgeFrame p power f = l.refuseFrame f.code .unknown := by
  simp [Link.judgeFrame, awake, check, unknown]

theorem Link.judgeFrame_of_wrongLength (check : f.checkRight = true) (known : HostCode.ofByte f.code = some code)
    (wrong : f.args.length ≠ code.argLength) : l.judgeFrame p power f = l.refuseFrame f.code .badArgument := by
  simp [Link.judgeFrame, awake, check, known, decodeCommand_eq_wrongLength_iff.2 wrong]

theorem Link.judgeFrame_of_refused (check : f.checkRight = true) (known : HostCode.ofByte f.code = some code)
    (right : f.args.length = code.argLength) (refused : power.passes code = false) :
    l.judgeFrame p power f = l.refuseFrame f.code (if power = .watch then .asleep else .notReady) := by
  have byPower : l.refuseByPower f.code power = l.refuseFrame f.code (if power = .watch then .asleep else .notReady) := by
    rw [Link.refuseByPower, PowerState.refusal_of_ne_dormant awake]
  simp only [Link.judgeFrame, awake, check, known, refused, byPower, if_false, Bool.not_true, Bool.false_eq_true]
  split
  · exact absurd right (decodeCommand_eq_wrongLength_iff.1 ‹_›)
  all_goals rfl

theorem Link.judgeFrame_of_passes (check : f.checkRight = true) (known : HostCode.ofByte f.code = some code)
    (passes : power.passes code = true) {row : Option Instr}
    (decoded : (∃ c, decodeCommand p code f.args = .row c ∧ row = some c) ∨
      (decodeCommand p code f.args = .unknownIdentifier ∧ row = none)) :
    l.judgeFrame p power f = l.handOver power code row := by
  rcases decoded with ⟨c, named, rfl⟩ | ⟨named, rfl⟩ <;> simp [Link.judgeFrame, awake, check, known, passes, named]

end

section

variable {p : Port} {bytes : List Byte} {f : Frame} {s : State}

theorem exec_frameComplete_of_not (h : (s.link p).transaction ≠ .receiving ∨ parseFrame bytes = none) :
    exec (.frameComplete p bytes) s = .next s := by
  refine congrArg Host.Outcome.next ?_
  rcases h with elsewhere | incomplete
  · exact if_neg elsewhere
  · rw [incomplete, ite_self]

theorem exec_frameComplete_of_frame (receiving : (s.link p).transaction = .receiving) (frame : parseFrame bytes = some f) :
    exec (.frameComplete p bytes) s = .next (s.setLink p ((s.link p).judgeFrame p s.power f)) :=
  congrArg Host.Outcome.next (by rw [if_pos receiving, frame])

end

/-- Settles O41: each test of R137 decides in its turn, and a frame that passes them all is handed over. -/
theorem frameCompletionIsJudged : Obligations.FrameCompletionIsJudged := by
  refine ⟨fun _ _ _ => exec_frameComplete_of_not, fun p bytes f s receiving frame awake => ?_⟩
  rw [exec_frameComplete_of_frame receiving frame]
  refine ⟨fun check => ?_, fun check unknown => ?_, fun code check known => ⟨fun wrong => ?_, fun right refused => ?_,
    fun row passes decoded => ?_⟩⟩
  · rw [Link.judgeFrame_of_badCheck awake check]; rfl
  · rw [Link.judgeFrame_of_unknown awake check unknown]; rfl
  · rw [Link.judgeFrame_of_wrongLength awake check known wrong]; rfl
  · rw [Link.judgeFrame_of_refused awake check known right refused]; rfl
  · rw [Link.judgeFrame_of_passes awake check known passes decoded, ← HostCode.ofByte_eq_some_iff.1 known]
    refine ⟨fun nothing => ?_, fun inHand waiting => ?_, fun inHand waiting => ?_⟩
    · rw [Link.handOver_of_nothing_of_passes nothing passes]
    · rw [Link.handOver_of_waits inHand waiting]
    · rw [Link.handOver_of_full inHand waiting]; rfl

/-! ## DORMANT (R137) -/

/-- The WAKE frame, with its right check byte. -/
abbrev wakeFrame : Frame := ⟨0x34#8, 0#8, [], crc8 [0x34#8, 0#8]⟩

/-- The three tests of DORMANT single out the WAKE frame among the frames that bytes complete. -/
theorem eq_wakeFrame_iff {bytes : List Byte} {f : Frame} (frame : parseFrame bytes = some f) :
    (f.checkRight && f.code == HostCode.wake.byte && f.length == 0#8) = true ↔ f = wakeFrame := by
  constructor
  · obtain ⟨code, length, args, check⟩ := f
    simp only [Bool.and_eq_true, beq_iff_eq, Frame.checkRight]
    rintro ⟨⟨rfl, rfl⟩, rfl⟩
    obtain rfl : args = [] := List.eq_nil_of_length_eq_zero (parseFrame_eq_some_iff.1 frame).1
    rfl
  · rintro rfl
    decide +kernel

/-- Settles O42: in DORMANT the WAKE frame is handed over to a port with nothing in hand, every other frame discarded. -/
theorem dormantHearsOnlyWake : Obligations.DormantHearsOnlyWake := by
  intro p bytes f s receiving frame dormant
  have judged : (s.link p).judgeFrame p s.power f =
      if f = wakeFrame then (s.link p).handOver .dormant .wake (some (.wake p)) else (s.link p).discard := by
    simp only [Link.judgeFrame, dormant, if_true, eq_wakeFrame_iff frame]
  rw [exec_frameComplete_of_frame receiving frame, judged]
  refine ⟨fun wake nothing => ?_, fun other => ?_⟩
  · rw [if_pos wake, Link.handOver_of_nothing_of_passes nothing rfl]
    rfl
  · rw [if_neg other]
    rfl

/-! ## The edges of a transaction (R134, R141) -/

/-- A command held whose transaction is no longer open. -/
def Held.closed (h : Held) : Held := { h with isOpen := false }

theorem Held.isOpen_of_map_closed {held : Option Held} {h : Held} (e : held.map Held.closed = some h) : h.isOpen = false := by
  obtain ⟨g, -, rfl⟩ := Option.map_eq_some_iff.1 e
  rfl

theorem Held.row_map_closed (held : Option Held) : (held.map Held.closed).map (·.row) = held.map (·.row) := by
  cases held <;> rfl

/-- The Link Interface at an edge of its chip-select: another transaction, and no command held with an open one. -/
def Link.edge (l : Link) (transaction : Transaction) (answerFrame : Option Answer) : Link :=
  { l with transaction, answerFrame, inHand := l.inHand.map .closed, waiting := l.waiting.map .closed }

theorem Link.select_of_deselected {l : Link} (h : l.transaction = .deselected) (inHold : Bool) :
    l.select inHold = l.edge (if inHold then .draining else .receiving) none := if_pos h

theorem Link.deselect_of_selected {l : Link} (h : l.transaction ≠ .deselected) :
    l.deselect = l.edge .deselected l.answerFrame := if_neg h

/-- What an edge of a port's chip-select does, and that it does nothing else. -/
theorem edge_facts {p : Port} {s : State} {c : Instr} {d : Transaction} {a : Option Answer}
    (happens : exec c s = .next (s.setLink p ((s.link p).edge d a))) :
    ∃ t, exec c s = .next t ∧ t = s.setLink p (t.link p) ∧ (t.link p).transaction = d ∧
      (t.link p).repeatStore = (s.link p).repeatStore ∧ (t.link p).clearing = (s.link p).clearing ∧
      (∀ h, (t.link p).inHand = some h → h.isOpen = false) ∧ (∀ h, (t.link p).waiting = some h → h.isOpen = false) ∧
      (t.link p).inHand.map (·.row) = (s.link p).inHand.map (·.row) ∧
      (t.link p).waiting.map (·.row) = (s.link p).waiting.map (·.row) := by
  refine ⟨_, happens, ?_⟩
  rw [State.link_setLink_same]
  exact ⟨rfl, rfl, rfl, rfl, fun _ => Held.isOpen_of_map_closed, fun _ => Held.isOpen_of_map_closed,
    Held.row_map_closed _, Held.row_map_closed _⟩

/-- Settles O40: both edges close what the port holds, and SDO follows the transaction state. -/
theorem transactionEdges : Obligations.TransactionEdges := by
  intro p s
  refine ⟨fun deselected => edge_facts (a := none) ?_, fun answering => ?_,
    fun selected => edge_facts (a := (s.link p).answerFrame) ?_, fun hold => ?_, fun released => ⟨fun deselected => ?_,
      fun fill => ?_, fun a answering frame => ?_⟩⟩
  · rw [← Link.select_of_deselected deselected]
    rfl
  · exact congrArg Host.Outcome.next (if_pos answering)
  · rw [← Link.deselect_of_selected selected]
    rfl
  · simp [State.sdo, hold]
  · simp [State.sdo, released, deselected]
  · rcases fill with state | state | state <;> simp [State.sdo, released, state]
  · simp [State.sdo, released, answering, frame]

/-! ## What a host command does (R138, R139) -/

/-- The part after a host command's row: `t` where the command is handed on in a power state that passes it, refused where
the power state does not pass it, and as it was where it is not handed on. -/
def State.takenAs (s : State) (p : Port) (code : HostCode) (c : Instr) (t : State) : State :=
  if s.handsOn p c then if s.power.passes code then t else s.refusePower p code else s

/-- The commands that clear the part where they are taken (R142). -/
def State.clearedBy (s : State) (code : HostCode) : Prop :=
  code = .reset ∨ code = .dormant ∨ code = .wake ∧ s.power = .dormant

/-- A row of port `p` is refused, taken or without effect, and taken it touches no other port's Link Interface, unless it
clears the part. -/
def IsCommandOf (p : Port) (code : HostCode) (c : Instr) (s : State) (o : Outcome) : Prop :=
  ∃ t, o = .next (s.takenAs p code c t) ∧ (¬ s.clearedBy code → KeepsOtherLinks p s t)

/-- A happening at the owner that leaves every Link Interface alone. -/
def KeepsLinks (take : Taking) : Prop := ∀ s, (take s).1.links = s.links

section

variable {p : Port} {code : HostCode} {c : Instr} {s : State}

theorem State.keepsOtherLinks_answer_of_links {t : State} (links : t.links = s.links) (p : Port) (a : Option Answer)
    (kept : Bool) : KeepsOtherLinks p s (t.answer p a kept) := fun q other => by
  rw [State.keepsOtherLinks_answer t p a kept q other, State.link, links, State.link]

theorem isCommandOf_ownerTakes {take : Taking} (links : KeepsLinks take) :
    IsCommandOf p code c s (.next (s.ownerTakes p code c take)) :=
  ⟨_, rfl, fun _ => State.keepsOtherLinks_answer_of_links (links s) _ _ _⟩

theorem isCommandOf_linkTakes (reply : State → Reply) :
    IsCommandOf p code c s (.next (s.linkTakes p code c reply)) :=
  ⟨_, rfl, fun _ => State.keepsOtherLinks_answer_of_links rfl _ _ _⟩

theorem keepsLinks_onSource {take : SourceNo → Taking} (h : ∀ i, KeepsLinks (take i)) (b : Byte) :
    KeepsLinks (onSource b take) := fun s =>
  KeptByOperations.onSource (P := fun t => t.links = s.links) rfl fun i => h i s

theorem keepsLinks_takeConfigure {α : Type} {p : Port} {field : Byte} {value : Half} {value? : SourceNo → Option α}
    {busy : SourceRec → Bool} {write : State → SourceNo → α → State}
    (h : ∀ s i v, (write s i v).links = s.links) (i : SourceNo) :
    KeepsLinks (takeConfigure p field value value? busy write i) := fun s =>
  KeptByOperations.configure (P := fun t => t.links = s.links) rfl i fun v _ _ => h s i v

end

theorem keepsLinks_takeWake : KeepsLinks takeWake := fun s => by
  unfold takeWake
  dsimp only
  split <;> rfl

theorem execDormant_isCommandOf (p : Port) (s : State) : IsCommandOf p .dormant (.dormant p) s (execDormant p s) := by
  refine ⟨if (s.restRefusal p).isNone then s.enterDormant p
    else s.answer p (some ((refuse ((s.restRefusal p).getD .busy)).answer .dormant)) true, ?_, fun stays => ?_⟩
  · unfold execDormant State.takenAs State.ownerTakes
    split <;> simp_all
  · exact absurd (.inr (.inl rfl)) stays

theorem execWake_isCommandOf (p : Port) (s : State) : IsCommandOf p .wake (.wake p) s (execWake p s) := by
  by_cases dormant : s.power = .dormant
  · refine ⟨s.leaveDormant p, ?_, fun stays => absurd (.inr (.inr ⟨rfl, dormant⟩)) stays⟩
    cases hands : s.handsOn p (.wake p) <;>
      simp [execWake, State.takenAs, State.ownerTakes, dormant, hands, PowerState.passes]
  · have awake : execWake p s = .next (s.ownerTakes p .wake (.wake p) takeWake) := by simp [execWake, dormant]
    rw [awake]
    exact isCommandOf_ownerTakes keepsLinks_takeWake

theorem execReset_isCommandOf (p : Port) (s : State) : IsCommandOf p .reset (.reset p) s (execReset p s) := by
  refine ⟨if s.settings.controlSet.has p then s.softReset p
    else s.answer p (some ((refuse .denied).answer .reset)) true, ?_, fun stays => ?_⟩
  · unfold execReset State.takenAs State.ownerTakes
    split <;> simp_all
  · exact absurd (.inl rfl) stays

/-- Every host command is refused by its power state, taken or without effect, and touches no other port's Link Interface
but where it clears the part. -/
theorem exec_isCommandOf {c : Instr} {p : Port} {code : HostCode} {args : List Byte}
    (host : c.hostForm = some (p, code, args)) (s : State) : IsCommandOf p code c s (exec c s) := by
  cases c <;> cases host
  case status | repeatAnswer => exact isCommandOf_linkTakes _
  case portClear =>
    refine ⟨_, rfl, fun _ q other => ?_⟩
    simp [Ne.symm other]
  case dormant => exact execDormant_isCommandOf p s
  case wake => exact execWake_isCommandOf p s
  case reset => exact execReset_isCommandOf p s
  case top | listClaims => exact isCommandOf_ownerTakes fun _ => rfl
  case claimTop | setThreshold | readIncident | readSetting | writeSettingControlSet | writeSettingWatchHoldGroupMask |
      writeSettingWatchHoldSegmentMask | writeSettingLastResetCause =>
    refine isCommandOf_ownerTakes fun s => ?_
    simp only [takeClaimTop, takeSetThreshold, takeReadIncident, takeReadSetting, takeWriteSetting, takeWriteCause]
    (repeat' split) <;> simp
  case watch =>
    refine isCommandOf_ownerTakes fun s => ?_
    unfold takeWatch
    split <;> rfl
  case claim | complete | defer | post | bind | unbind | lend | recallLoan | returnLoan | enable | disable =>
    refine isCommandOf_ownerTakes (keepsLinks_onSource (fun i s => ?_) _)
    simp only [takeClaimOf, takeComplete, takeDefer, takePost, takeBind, takeUnbind, takeLend, takeRecall, takeReturn,
      takeEnable, takeDisable, boundAnswer]
    (repeat' split) <;> simp
  case readSource => exact isCommandOf_ownerTakes (keepsLinks_onSource (fun _ _ => rfl) _)
  case configureQualify =>
    refine isCommandOf_ownerTakes (keepsLinks_onSource (keepsLinks_takeConfigure fun s i v => ?_) _)
    simp [State.writeQualify]
  case configurePriority | configureGroup | configureTrigger | configureWaitLimit | configureServiceLimit |
      configureFallback | configurePosters =>
    refine isCommandOf_ownerTakes (keepsLinks_onSource (keepsLinks_takeConfigure ?_) _)
    exact fun _ _ _ => rfl

/-- Settles O44: a command that is handed on where the power state does not pass it is refused, and in a hold none is handed
on. -/
theorem powerRefusalsChangeNothingElse : Obligations.PowerRefusalsChangeNothingElse := by
  intro c p code args s host
  obtain ⟨t, effect, -⟩ := exec_isCommandOf host s
  rw [effect]
  refine ⟨fun hands refused => ?_, fun hold => ?_⟩
  · rw [State.takenAs, if_pos hands, if_neg (Bool.eq_false_iff.1 refused), State.refusePower]
    cases s.power <;> rfl
  · rw [State.takenAs, State.handsOn_of_hold hold]
    rfl

/-- Settles O45: a command that does not clear the part leaves the other ports' Link Interfaces as they are, whether it is
taken, refused or without effect. -/
theorem commandsKeepOtherPortsLinks : Obligations.CommandsKeepOtherPortsLinks := by
  intro c p code args s t host happens notReset notDormant notWake
  obtain ⟨u, effect, taken⟩ := exec_isCommandOf host s
  rw [effect] at happens
  cases happens
  have stays : ¬ s.clearedBy code := by
    rintro (reset | dormant | ⟨wake, dormant⟩)
    exacts [notReset reset, notDormant dormant, notWake wake dormant]
  unfold State.takenAs
  (repeat' split)
  · exact taken stays
  · exact s.keepsOtherLinks_answer p _ _
  · exact fun _ _ => rfl

/-! ## STATUS and REPEAT (R146, R148) -/

theorem PowerState.passes_linkCommand {power : PowerState} {code : HostCode}
    (link : code = .status ∨ code = .repeatAnswer) (awake : power ≠ .dormant) : power.passes code = true := by
  rcases link with rfl | rfl <;> cases power
  case inl.dormant | inr.dormant => exact absurd rfl awake
  all_goals rfl

/-- Settles O6: STATUS is passed and answered with table A. -/
theorem statusReportsTheSender : Obligations.StatusReportsTheSender := by
  intro p s hands awake
  have retracted : s.retractedCount p = (s.claimList p).countP (·.status == .retracted) :=
    congrArg ((s.claimList p).countP ·) (funext ClaimEntry.not_isHeld)
  refine congrArg Host.Outcome.next ?_
  rw [State.linkTakes_of_passes hands (PowerState.passes_linkCommand (.inl rfl) awake), statusPayload, retracted]
  rfl

/-- Settles O7: REPEAT is passed and answered from the store. -/
theorem repeatAnswersTheStore : Obligations.RepeatAnswersTheStore := by
  intro p s hands awake
  have answered : exec (.repeatAnswer p) s =
      .next (s.answer p (some ((repeatReply (s.link p).repeatStore).answer .repeatAnswer)) false) :=
    congrArg Host.Outcome.next
      (State.linkTakes_of_passes hands (PowerState.passes_linkCommand (.inr rfl) awake) _)
  refine ⟨fun a stored => ?_, fun empty => ?_⟩
  · rw [answered, stored]
    rfl
  · rw [answered, empty]
    rfl

end Sys2Proof.Machine

/-! PROOF. The settings page, the power commands, the table check and the reset pins (O35 to O39, O48, O52, O53), and
the state after reset (O60). A clearing is said once, by a command of a port and by a hold; the state after reset is
itself a clearing, and so meets every invariant. -/

namespace Sys2Proof.Machine

/-- A taking that refuses, in a power state that passes the command, changes nothing but the answer. -/
theorem State.ownerTakes_refuse {s : State} {p : Port} {c : Instr} {code : HostCode} {take : Taking} {r : Result}
    (hands : s.handsOn p c = true) (passes : s.power.passes code = true) (refused : take s = (s, refuse r)) :
    s.ownerTakes p code c take = refusedWith s p code r := by
  rw [State.ownerTakes_of_passes hands passes, refused]
  rfl

/-! ## The settings page (R152, R167, R168) -/

theorem settingArg_of {b : Byte} {id : Fin 4} (h : b.toNat = id.val) : settingArg b = some id := by
  simp [settingArg, h]

theorem settingArg_out {b : Byte} (h : 4 ≤ b.toNat) : settingArg b = none := dif_neg (by omega)

theorem controlSetArg_of {v : Half} (h1 : 1 ≤ v.toNat) (h : v.toNat < 16) : controlSetArg v = some (v.setWidth 4) :=
  if_pos ⟨h1, h⟩

theorem controlSetArg_out {v : Half} (h : v.toNat = 0 ∨ 16 ≤ v.toNat) : controlSetArg v = none := if_neg (by omega)

theorem maskArg_of {v : Half} (h : v.toNat < 256) : maskArg v = some (v.setWidth 8) := if_pos h

theorem maskArg_out {v : Half} (h : 256 ≤ v.toNat) : maskArg v = none := if_neg (by omega)

/-- A value with high byte 0, as the payload carries it. -/
theorem halfBytes_of_lt {v : Half} (h : v.toNat < 256) : halfBytes v = [0#8, v.setWidth 8] := by
  have high : v.extractLsb' 8 8 = 0#8 := BitVec.eq_of_toNat_eq (by simp [Nat.shiftRight_eq_div_pow]; omega)
  have low : v.extractLsb' 0 8 = v.setWidth 8 := BitVec.eq_of_toNat_eq (by simp)
  rw [halfBytes, high, low]

/-- A value below 16 loses nothing in the control set's four bits. -/
theorem setWidth_setWidth_of_lt {v : Half} (h : v.toNat < 16) : (v.setWidth 4).setWidth 8 = v.setWidth 8 :=
  BitVec.eq_of_toNat_eq (by simp; omega)

section

variable {s : State} {p : Port} {c : Instr}

theorem exec_readSetting_of_ready {b : Byte} {id : Fin 4} (hr : Ready s p (.readSetting p b)) (h : b.toNat = id.val) :
    exec (.readSetting p b) s = .next (s.answer p (some ⟨0x30#8, .ok, b :: s.settings.bytes id⟩) true) := by
  refine congrArg Host.Outcome.next ((State.ownerTakes_of_ready hr _ _).trans ?_)
  simp only [takeReadSetting, settingArg_of h]
  rfl

theorem exec_readSetting_out {b : Byte} (hr : Ready s p (.readSetting p b)) (h : 4 ≤ b.toNat) :
    exec (.readSetting p b) s = .next (refusedWith s p .readSetting .badArgument) := by
  refine congrArg Host.Outcome.next (State.ownerTakes_refuse hr.1 (State.passes_of_active hr.2 _) ?_)
  simp only [takeReadSetting, settingArg_out h]

variable {α : Type} {id : Fin 4} {value? : Option α} {write : Settings → α → Settings} (hr : Ready s p c)

include hr

theorem State.ownerTakes_writeSetting_badArgument (hv : value? = none) :
    s.ownerTakes p .writeSetting c (takeWriteSetting p id value? write) =
      refusedWith s p .writeSetting .badArgument :=
  State.ownerTakes_refuse hr.1 (State.passes_of_active hr.2 _) (by simp only [takeWriteSetting, hv])

theorem State.ownerTakes_writeSetting_denied {v : α} (hv : value? = some v)
    (outside : s.settings.controlSet.getLsbD p.val = false) :
    s.ownerTakes p .writeSetting c (takeWriteSetting p id value? write) = refusedWith s p .writeSetting .denied := by
  refine State.ownerTakes_refuse hr.1 (State.passes_of_active hr.2 _) ?_
  simp only [takeWriteSetting, hv, PortSet.has, outside, Bool.false_eq_true, if_false]

/-- A WRITE_SETTING that passes its checks writes the page and answers the identifier and the value in force. -/
theorem State.ownerTakes_writeSetting {v : α} (hv : value? = some v)
    (member : s.settings.controlSet.getLsbD p.val = true) {payload : List Byte}
    (inForce : (write s.settings v).bytes id = payload) :
    s.ownerTakes p .writeSetting c (takeWriteSetting p id value? write) =
      ({ s with settings := write s.settings v } : State).answer p
        (some ⟨0x31#8, .ok, byteOf id.val :: payload⟩) true := by
  rw [State.ownerTakes_of_ready hr]
  simp only [takeWriteSetting, hv, PortSet.has, member, if_true, inForce]
  rfl

end

/-- Settles O35: each row stops at its first check that fails, or writes its field. -/
theorem settingsAreReadAndWritten : Obligations.SettingsAreReadAndWritten := by
  intro p b v s
  refine ⟨fun hr => ?_, fun hr => ?_, fun hr => ?_, fun hr => ?_, fun hr => ?_⟩
  · refine ⟨?_, ?_, ?_, ?_, exec_readSetting_out hr⟩ <;> rintro rfl
    · exact exec_readSetting_of_ready (id := 0) hr rfl
    · exact exec_readSetting_of_ready (id := 1) hr rfl
    · exact exec_readSetting_of_ready (id := 2) hr rfl
    · exact exec_readSetting_of_ready (id := 3) hr rfl
  · refine ⟨fun hv => ?_, fun h1 h outside => ?_, fun h1 h member => ?_⟩ <;> refine congrArg Host.Outcome.next ?_
    · exact State.ownerTakes_writeSetting_badArgument hr (controlSetArg_out hv)
    · exact State.ownerTakes_writeSetting_denied hr (controlSetArg_of h1 h) outside
    · refine State.ownerTakes_writeSetting hr (controlSetArg_of h1 h) member ?_
      rw [halfBytes_of_lt (by omega), ← setWidth_setWidth_of_lt h]
      rfl
  · refine ⟨fun hv => ?_, fun h outside => ?_, fun h member => ?_⟩ <;> refine congrArg Host.Outcome.next ?_
    · exact State.ownerTakes_writeSetting_badArgument hr (maskArg_out hv)
    · exact State.ownerTakes_writeSetting_denied hr (maskArg_of h) outside
    · exact State.ownerTakes_writeSetting hr (maskArg_of h) member (halfBytes_of_lt h).symm
  · refine ⟨fun hv => ?_, fun h outside => ?_, fun h member => ?_⟩ <;> refine congrArg Host.Outcome.next ?_
    · exact State.ownerTakes_writeSetting_badArgument hr (maskArg_out hv)
    · exact State.ownerTakes_writeSetting_denied hr (maskArg_of h) outside
    · exact State.ownerTakes_writeSetting hr (maskArg_of h) member (halfBytes_of_lt h).symm
  · have refused (r : Result) (h : takeWriteCause p v s = (s, refuse r)) :
        exec (.writeSettingLastResetCause p v) s = .next (refusedWith s p .writeSetting r) :=
      congrArg Host.Outcome.next (State.ownerTakes_refuse hr.1 (State.passes_of_active hr.2 _) h)
    refine ⟨fun hv => refused _ ?_, fun h outside => refused _ ?_, fun h member => refused _ ?_⟩
    · rw [takeWriteCause, maskArg_out hv]
    · simp only [takeWriteCause, maskArg_of h, PortSet.has, outside, Bool.false_eq_true, if_false]
    · simp only [takeWriteCause, maskArg_of h, PortSet.has, member, if_true]

/-! ## The checks of WATCH and DORMANT (R160, R164) -/

section

variable {s : State} {p : Port}

theorem State.restRefusal_denied (outside : s.settings.controlSet.getLsbD p.val = false) :
    s.restRefusal p = some .denied := by
  simp only [State.restRefusal, PortSet.has, outside, Bool.not_false, if_true]

theorem State.restRefusal_busy (member : s.settings.controlSet.getLsbD p.val = true)
    (busy : (∃ q, ∃ e ∈ s.claimList q, e.status = .held) ∨ ∃ q, (s.link q).clearing ≠ .idle) :
    s.restRefusal p = some .busy := by
  rw [← State.anyHeld_iff, ← State.anyClearing_iff] at busy
  rcases busy with busy | busy <;> simp [State.restRefusal, PortSet.has, member, busy]

theorem State.restRefusal_none (member : s.settings.controlSet.getLsbD p.val = true)
    (unheld : ∀ q, ∀ e ∈ s.claimList q, e.status = .retracted) (idle : ∀ q, (s.link q).clearing = .idle) :
    s.restRefusal p = none := by
  have held : s.anyHeld = false := by
    rw [← Bool.not_eq_true, State.anyHeld_iff]
    rintro ⟨q, e, he, hh⟩
    simp [unheld q e he] at hh
  have clearing : s.anyClearing = false := by
    rw [← Bool.not_eq_true, State.anyClearing_iff]
    rintro ⟨q, hq⟩
    exact hq (idle q)
  simp [State.restRefusal, PortSet.has, member, held, clearing]

/-! ## WATCH (R160, R55, R59, R105) -/

theorem State.line_freezeLines (s : State) (n : LineNo) :
    s.freezeLines.line n = if s.watched n then s.line n else (s.line n).freeze := State.line_mapLines s _ n

/-- The part as WATCH leaves it, before the answer. -/
def State.enterWatch (s : State) : State := { s.deliverReached.freezeLines with power := .watch }

theorem State.timer_enterWatch (s : State) (i : SourceNo) :
    s.enterWatch.timer i = (s.timer i).map fun x => { x with delivered := x.expired s.partTime } :=
  State.timer_deliverReached s i

theorem State.line_enterWatch (s : State) (n : LineNo) :
    s.enterWatch.line n = if s.watched n then s.line n else (s.line n).freeze :=
  State.line_freezeLines s.deliverReached n

/-- What makes a line a watched one (R55). -/
theorem State.watched_iff (s : State) (n : LineNo) :
    s.watched n = true ↔ (s.source (sourceOf n)).enabled = true ∧
      s.settings.groupMask.getLsbD (s.source (sourceOf n)).group.val = false ∧
      s.settings.segmentMask.getLsbD (n.val / 12) = false := by
  simp [State.watched, segmentOf, sourceOf, and_assoc]

theorem exec_watch_refused {r : Result} (hr : Ready s p (.watch p)) (refused : s.restRefusal p = some r) :
    exec (.watch p) s = .next (refusedWith s p .watch r) :=
  congrArg Host.Outcome.next
    (State.ownerTakes_refuse hr.1 (State.passes_of_active hr.2 _) (by rw [takeWatch, refused]))

theorem exec_watch_taken (hr : Ready s p (.watch p)) (free : s.restRefusal p = none) :
    exec (.watch p) s = .next (s.enterWatch.answer p (some ⟨0x32#8, .ok, []⟩) true) := by
  refine congrArg Host.Outcome.next ((State.ownerTakes_of_ready hr _ _).trans ?_)
  rw [takeWatch, free]
  rfl

end

/-- Settles O36: an expiry stands delivered exactly where it was marked or part time has reached it. -/
theorem watchFreezesTheUnwatchedLines : Obligations.WatchFreezesTheUnwatchedLines := by
  intro p s hr
  refine ⟨fun outside => exec_watch_refused hr (State.restRefusal_denied outside), fun member =>
    ⟨fun busy => exec_watch_refused hr (State.restRefusal_busy member busy), fun unheld idle => ?_⟩⟩
  refine ⟨_, exec_watch_taken hr (State.restRefusal_none member unheld idle), rfl,
    State.keepsOtherLinks_answer_of_links (t := s.enterWatch) rfl p _ _, fun i none => ?_, fun i x timer => ?_,
    State.link_answer s.enterWatch p _ _, fun n => ?_⟩
  · rw [State.timer_answer, State.timer_enterWatch, none]
    rfl
  · have entered : (s.enterWatch.answer p (some ⟨0x32#8, .ok, []⟩) true).timer i =
        some { x with delivered := x.delivered || x.reached s.partTime } := by
      rw [State.timer_answer, State.timer_enterWatch, timer]
      rfl
    rw [entered]
    refine ⟨fun due => ?_, fun delivered => ?_, fun h1 h2 => ?_⟩
    · rw [Timer.reached_of_eq due, Bool.or_true]
    · rw [delivered, Bool.true_or, ← delivered]
    · rw [Timer.reached_eq_false h1 h2, Bool.or_false]
  · rw [State.line_answer, State.line_enterWatch]
    exact if_congr (State.watched_iff s n) rfl rfl

/-! ## A clearing that a command causes (R134, R142, R145, R153) -/

section

variable (s : State) (p : Port) (code : HostCode) (settings : Settings) (power : PowerState) (store : Option Answer)

theorem State.line_clearFor (n : LineNo) :
    (s.clearFor p code settings power store).line n = { Line.default with pin := (s.line n).pin } :=
  State.line_clear s settings power n

theorem State.link_clearFor_other (q : Port) (other : q ≠ p) :
    (s.clearFor p code settings power store).link q = (s.link q).cut := by
  rw [State.link_clearFor, if_neg other.symm]

theorem State.issuerAnswered_clearFor : IssuerAnswered p code store s (s.clearFor p code settings power store) := by
  rw [IssuerAnswered, State.link_clearFor, if_pos rfl]
  simp [Link.cutIssuer, Link.cut, Reply.answer, okWith]

end

/-! ## DORMANT (R164) -/

section

variable {s : State} {p : Port}

theorem exec_dormant_refused {r : Result} (hr : Ready s p (.dormant p)) (refused : s.restRefusal p = some r) :
    exec (.dormant p) s = .next (refusedWith s p .dormant r) := by
  refine congrArg Host.Outcome.next ((if_neg (by simp [refused])).trans ?_)
  exact State.ownerTakes_refuse hr.1 (State.passes_of_active hr.2 _) (by rw [refused]; rfl)

theorem exec_dormant_taken (hr : Ready s p (.dormant p)) (free : s.restRefusal p = none) :
    exec (.dormant p) s = .next (s.enterDormant p) :=
  congrArg Host.Outcome.next (if_pos (by simp [hr.1, State.passes_of_active hr.2, free]))

end

/-- Settles O37: past the checks of WATCH it is a clearing for the sender. -/
theorem dormantClearsThePart : Obligations.DormantClearsThePart := by
  intro p s hr
  exact ⟨fun outside => exec_dormant_refused hr (State.restRefusal_denied outside), fun member =>
    ⟨fun busy => exec_dormant_refused hr (State.restRefusal_busy member busy), fun unheld idle =>
      ⟨_, exec_dormant_taken hr (State.restRefusal_none member unheld idle), rfl, State.line_clearFor s p _ _ _ _,
        State.link_clearFor_other s p _ _ _ _, State.issuerAnswered_clearFor s p _ _ _ _⟩⟩⟩

/-! ## RESET (R158) -/

theorem PowerState.passes_reset {power : PowerState}
    (h : power = .active ∨ power = .watch ∨ power = .waking ∨ power = .failed) : power.passes .reset = true := by
  rcases h with rfl | rfl | rfl | rfl <;> rfl

/-- Settles O39: from a member of the control set it is a clearing for the sender. -/
theorem resetIsASoftReset : Obligations.ResetIsASoftReset := by
  intro p s hands awake
  have passes := PowerState.passes_reset awake
  refine ⟨fun outside => congrArg Host.Outcome.next ?_, fun member =>
    ⟨s.softReset p, congrArg Host.Outcome.next (if_pos ?_), rfl, State.line_clearFor s p _ _ _ _,
      State.link_clearFor_other s p _ _ _ _, State.issuerAnswered_clearFor s p _ _ _ _⟩⟩
  · have stays : ¬(s.handsOn p (.reset p) && s.power.passes .reset && s.settings.controlSet.has p) = true := by
      rw [PortSet.has, outside, Bool.and_false]
      exact Bool.false_ne_true
    exact (if_neg stays).trans (State.ownerTakes_refuse hands passes rfl)
  · simp [hands, passes, PortSet.has, member]

/-! ## WAKING begins (R162, R60) -/

section

variable {s : State} {p : Port}

theorem State.line_resumeLines (s : State) (n : LineNo) :
    s.resumeLines.line n = if s.watched n then s.line n else (s.line n).resume s.samplerTime (s.qualifyTime n) :=
  State.line_mapLines s _ n

theorem State.line_startWaking (s : State) (n : LineNo) :
    s.startWaking.line n = if s.watched n then s.line n else (s.line n).resume s.samplerTime (s.qualifyTime n) :=
  State.line_resumeLines s n

section

variable {l : Line} {now qualify : Nat}

/-- A pin at the frozen level begins no span. -/
theorem Line.resume_of_level (level : l.pin = l.qualified) :
    l.resume now qualify = { l with raw := l.pin, span := none } := if_pos level

theorem Line.resume_away (level : l.pin ≠ l.qualified) (qualifies : qualify ≠ 0) :
    l.resume now qualify = { l with raw := l.pin, span := some now } := by
  rw [Line.resume, if_neg level, Line.begin, if_neg qualifies]

theorem Line.resume_away_zero (level : l.pin ≠ l.qualified) :
    l.resume now 0 =
      { l with raw := l.pin, span := none, reports := l.reports ++ [if l.pin then .rise else .fall] } := by
  rw [Line.resume, if_neg level, Line.begin, if_pos rfl, Line.report, Edge.toward_eq]

end

/-! ## WAKE (R165) -/

/-- Outside DORMANT, WAKE is a command that Power Control takes or refuses. -/
theorem exec_wake_of_awake (awake : s.power ≠ .dormant) :
    exec (.wake p) s = .next (s.ownerTakes p .wake (.wake p) takeWake) :=
  congrArg Host.Outcome.next (if_neg (by simp [awake]))

theorem exec_wake_of_dormant (hands : s.handsOn p (.wake p) = true) (dormant : s.power = .dormant) :
    exec (.wake p) s = .next (s.leaveDormant p) :=
  congrArg Host.Outcome.next (if_pos (by simp [hands, dormant]))

theorem exec_wake_of_watch (hands : s.handsOn p (.wake p) = true) (watch : s.power = .watch) :
    exec (.wake p) s = .next (s.startWaking.answer p (some ⟨0x34#8, .ok, []⟩) true) := by
  have passes : s.power.passes .wake = true := by rw [watch]; rfl
  rw [exec_wake_of_awake (by simp [watch]), State.ownerTakes_of_passes hands passes, takeWake, if_pos watch]
  rfl

theorem exec_wake_of_running (hands : s.handsOn p (.wake p) = true)
    (running : s.power = .active ∨ s.power = .waking) :
    exec (.wake p) s = .next (s.answer p (some ⟨0x34#8, .ok, []⟩) true) := by
  have passes : s.power.passes .wake = true := by rcases running with h | h <;> rw [h] <;> rfl
  have awake : s.power ≠ .dormant ∧ s.power ≠ .watch := by rcases running with h | h <;> simp [h]
  rw [exec_wake_of_awake awake.1, State.ownerTakes_of_passes hands passes, takeWake, if_neg awake.2]
  rfl

theorem exec_wake_of_notReady (hands : s.handsOn p (.wake p) = true)
    (idle : s.power = .init ∨ s.power = .failed) :
    exec (.wake p) s = .next (s.answer p (some ⟨0x34#8, .notReady, []⟩) false) := by
  have refused : s.power.passes .wake = false := by rcases idle with h | h <;> rw [h] <;> rfl
  have refusal : s.power.refusal = some .notReady := by rcases idle with h | h <;> rw [h] <;> rfl
  have awake : s.power ≠ .dormant := by rcases idle with h | h <;> simp [h]
  rw [exec_wake_of_awake awake, State.ownerTakes_of_refused hands refused, State.refusePower, refusal]
  rfl

end

/-- Settles O38: a line that is not watched is resumed, and from DORMANT it is a clearing for the sender. -/
theorem wakeByPowerState : Obligations.WakeByPowerState := by
  intro p s hands
  refine ⟨exec_wake_of_running hands, exec_wake_of_notReady hands, fun watch => ?_, fun dormant =>
    ⟨_, exec_wake_of_dormant hands dormant, rfl, State.line_clearFor s p _ _ _ _,
      State.link_clearFor_other s p _ _ _ _, State.issuerAnswered_clearFor s p _ _ _ _⟩⟩
  refine ⟨_, exec_wake_of_watch hands watch, rfl,
    State.keepsOtherLinks_answer_of_links (t := s.startWaking) rfl p _ _, State.link_answer s.startWaking p _ _,
    fun n => ?_⟩
  rw [State.line_answer, State.line_startWaking]
  refine ⟨fun watched => if_pos watched, fun watched level => ?_, fun watched level qualifies => ?_,
    fun watched level immediate => ?_⟩ <;> rw [if_neg (by simp [watched])]
  · exact Line.resume_of_level level
  · exact Line.resume_away level fun h => qualifies (Fin.ext h)
  · rw [State.qualifyTime, immediate]
    exact Line.resume_away_zero level

/-! ## Wake reports and the end of WAKING (R162, R163) -/

theorem exec_wakeReport_of_report {s : State} {k : Nat} (h : s.wakeReports = k + 1) :
    exec .wakeReport s = .next
      (if s.power = .watch then ({ s with wakeReports := k } : State).startWaking
      else { s with wakeReports := k }) := by
  refine congrArg Host.Outcome.next ((if_neg (by omega)).trans ?_)
  rw [h]
  rfl

theorem exec_wakingEnd_eq {s : State} (waking : s.power = .waking) :
    exec .wakingEnd s = .next (if 20 ≤ (s.partTime - s.wakingSince).toNat then { s with power := .active } else s) :=
  congrArg Host.Outcome.next (if_congr (by simp [State.wakingDone, waking]) rfl rfl)

/-- Settles O48: the report starts WAKING as WAKE does. -/
theorem wakeReportAndWakingEnd : Obligations.WakeReportAndWakingEnd := by
  intro s
  refine ⟨fun k h => ⟨fun watch => ?_, fun other => ?_⟩, fun waking => ⟨fun done => ?_, fun short => ?_⟩⟩
  · rw [exec_wakeReport_of_report h, if_pos watch]
    exact ⟨_, rfl, rfl, State.line_startWaking { s with wakeReports := k }⟩
  · rw [exec_wakeReport_of_report h, if_neg other]
  · rw [exec_wakingEnd_eq waking, if_pos done]
  · rw [exec_wakingEnd_eq waking, if_neg (by omega)]

/-! ## The table check (R155 to R157) -/

section

variable {s : State} {found : CheckFinding}

/-- During a hold no table check runs (R154). -/
theorem exec_tableCheck_of_inHold (hold : s.inHold = true) : exec (.tableCheck found) s = .next s :=
  congrArg Host.Outcome.next (if_neg (by simp [State.checking, hold]))

theorem exec_tableCheck_of_checking (init : s.power = .init) (hold : s.inHold = false) :
    exec (.tableCheck found) s = .next
      (if found = .storageFault || s.settingsFault found then s.enterFailed (s.settingsFault found)
      else s.enterActive) :=
  congrArg Host.Outcome.next (if_pos (by simp [State.checking, init, hold]))

theorem State.settingsFault_iff :
    s.settingsFault found = true ↔ found = .settingsFault ∨ s.settings.controlSet = 0#4 := by
  simp [State.settingsFault]

end

/-- Settles O52: what the check found and the control set decide between ACTIVE and FAILED. -/
theorem tableCheckEndsInit : Obligations.TableCheckEndsInit := by
  intro found s init hold
  rw [exec_tableCheck_of_checking init hold]
  refine ⟨fun nothing nonempty => ⟨s.enterActive, ?_, rfl, State.line_mapLines s _⟩, fun fault => ?_,
    fun storage nonempty => ?_⟩
  · rw [if_neg (by simp [State.settingsFault_iff, nothing, nonempty])]
  · rw [State.settingsFault_iff.2 fault, Bool.or_true, if_pos rfl]
    rfl
  · have sound : s.settingsFault found = false := by
      simp [← Bool.not_eq_true, State.settingsFault_iff, storage, nonempty]
    rw [sound, if_pos (by simp [storage])]
    rfl

/-! ## Power-on and RESETn (R153, R154) -/

/-- The part in a hold, with its pins. -/
def State.heldWith (s : State) (hold : Hold) (resetnLow supplyReady : Bool) : State :=
  { s.beginHold hold with resetnLow, supplyReady }

/-- The part after the full reset that ends a hold: RESETn high and the supply ready. -/
def State.releasedWith (s : State) (cause : ResetCause) : State :=
  { s.fullReset cause with resetnLow := false, supplyReady := true }

theorem State.line_releasedWith (s : State) (cause : ResetCause) (n : LineNo) :
    (s.releasedWith cause).line n = { Line.default with pin := (s.line n).pin } :=
  State.line_clear s (Settings.fresh cause) .init n

theorem State.link_releasedWith (s : State) (cause : ResetCause) (p : Port) :
    (s.releasedWith cause).link p = (s.link p).cut :=
  State.link_clear s (Settings.fresh cause) .init p

/-- A hold clears every line and link, drives nothing on SDO and runs no table check. -/
theorem State.heldWith_clears (s : State) {hold : Hold} (held : hold ≠ .released) (resetnLow supplyReady : Bool) :
    (∀ n, (s.heldWith hold resetnLow supplyReady).line n = { Line.default with pin := (s.line n).pin }) ∧
      (∀ p, (s.heldWith hold resetnLow supplyReady).link p = (s.link p).cut) ∧
      (∀ p, (s.heldWith hold resetnLow supplyReady).sdo p = .nothing) ∧
      ∀ found, exec (.tableCheck found) (s.heldWith hold resetnLow supplyReady) =
        .next (s.heldWith hold resetnLow supplyReady) :=
  have inHold : (s.heldWith hold resetnLow supplyReady).inHold = true := bne_iff_ne.2 held
  ⟨State.line_clear s (Settings.fresh s.settings.lastResetCause) .init,
    State.link_clear s (Settings.fresh s.settings.lastResetCause) .init, fun _ => if_pos inHold,
    fun _ => exec_tableCheck_of_inHold inHold⟩

/-- The cause of the full reset that ends a hold. -/
theorem Hold.cause_eq (hold : Hold) : hold.cause = if hold = .powerOn then .powerOn else .pin := by cases hold <;> rfl

section

variable {s : State}

theorem exec_resetnLow_of_ready (high : s.resetnLow = false) (ready : s.supplyReady = true) :
    exec .resetnLow s = .next (s.heldWith .pin true true) := by
  refine congrArg Host.Outcome.next ((if_neg (by simp [high])).trans ((if_pos ready).trans ?_))
  exact congrArg (s.heldWith .pin true) ready

theorem exec_resetnRelease_of_ready (low : s.resetnLow = true) (ready : s.supplyReady = true) :
    exec .resetnRelease s = .next (s.releasedWith s.hold.cause) := by
  refine congrArg Host.Outcome.next ((if_neg (by simp [low])).trans ((if_pos ready).trans ?_))
  exact congrArg (fun b => { s.releasedWith s.hold.cause with supplyReady := b }) ready

theorem exec_supplyAndRefclkReady_of_high (unready : s.supplyReady = false) (high : s.resetnLow = false) :
    exec .supplyAndRefclkReady s = .next (s.releasedWith .powerOn) := by
  refine congrArg Host.Outcome.next ((if_neg (by simp [unready])).trans ((if_neg (by simp [high])).trans ?_))
  exact congrArg (fun b => { s.releasedWith .powerOn with resetnLow := b }) high

end

/-- Settles O53: each pin alone begins or lengthens a hold, and the two together end it. -/
theorem resetPinsHoldAndRelease : Obligations.ResetPinsHoldAndRelease := by
  intro s
  refine ⟨?_, fun high ready => ?_, fun high unready => ?_, fun low ready => ?_, fun low unready => ?_,
    fun unready high => ?_, fun unready low => ?_⟩
  · exact ⟨s.heldWith .powerOn s.resetnLow false, rfl, rfl, s.heldWith_clears (by decide) _ _⟩
  · exact ⟨_, exec_resetnLow_of_ready high ready, rfl, s.heldWith_clears (by decide) _ _⟩
  · exact congrArg Host.Outcome.next ((if_neg (by simp [high])).trans (if_neg (by simp [unready])))
  · refine ⟨_, exec_resetnRelease_of_ready low ready, ?_, s.line_releasedWith _, s.link_releasedWith _⟩
    rw [Hold.cause_eq]
    rfl
  · exact congrArg Host.Outcome.next ((if_neg (by simp [low])).trans (if_neg (by simp [unready])))
  · exact ⟨_, exec_supplyAndRefclkReady_of_high unready high, rfl, s.line_releasedWith _, s.link_releasedWith _⟩
  · exact congrArg Host.Outcome.next ((if_neg (by simp [unready])).trans (if_pos low))

/-! ## The state after reset (R153) -/

/-- The state after reset is what a full reset of it leaves. -/
theorem State.clear_reset : State.reset.clear (Settings.fresh .powerOn) .init = State.reset := by
  have lines : (State.reset.clear (Settings.fresh .powerOn) .init).lines = State.reset.lines :=
    State.lines_ext fun n => by
      rw [State.line_clear]
      simp [State.line, State.reset, Table.at, Line.clear, Line.default]
  have links : (State.reset.clear (Settings.fresh .powerOn) .init).links = State.reset.links :=
    State.links_ext fun p => by
      rw [State.link_clear]
      simp [State.link, State.reset, Table.at, Link.cut, Link.default]
  calc State.reset.clear (Settings.fresh .powerOn) .init
      = { State.reset with
          lines := (State.reset.clear (Settings.fresh .powerOn) .init).lines
          links := (State.reset.clear (Settings.fresh .powerOn) .init).links } := rfl
    _ = State.reset := by rw [lines, links]

/-- Settles O60: a clearing meets every invariant, and the state after reset is one. -/
theorem resetMeetsTheInvariants : Obligations.ResetMeetsTheInvariants := by
  unfold Obligations.ResetMeetsTheInvariants
  rw [← State.clear_reset]
  refine ⟨State.recordsSound_clear _ _ _, State.claimsSound_clear _ _ _, fun p => ?_, State.queuesSound_clear _ _ _,
    freshNonempty, fun p _ => ?_, State.attentionSound_clear _ _ _, State.restSound_clear _ _ (.inl rfl),
    .of_power (by simp [State.clear]) (by simp [State.clear])⟩
  · rw [State.claimList_clear]
    exact .nil
  · rw [State.link_clear]
    rfl

end Sys2Proof.Machine

/-! PROOF. A step runs the command at the front of the queue (O1), and every command answers a next state with the queue
as it was (O2). A host command changes the part by what is taken at its owner and by the answer alone, and each of its
takings keeps the queue; so does each happening that no port commands. -/

namespace Sys2Proof.Machine

/-- Settles O1: the two states differ in nothing. -/
theorem stepRunsTheFrontCommand : Obligations.StepRunsTheFrontCommand := fun _ _ => rfl

/-- A command answers a next state, with the queue as it was. -/
def KeepsQueue (s : State) (o : Outcome) : Prop := ∃ t, o = .next t ∧ t.pending = s.pending

/-- A taking at the owner that leaves the queue of commands alone. -/
def TakesKeepingQueue (take : Taking) : Prop := ∀ s, (take s).1.pending = s.pending

section

variable {s : State} {p : Port} {code : HostCode} {c : Instr}

@[simp] theorem State.pending_clearTable (s : State) (p : Port) : (s.clearTable p).pending = s.pending :=
  (s.keepsSurroundings_clearTable p).pending

theorem State.pending_ownerTakes {take : Taking} (keeps : TakesKeepingQueue take) :
    (s.ownerTakes p code c take).pending = s.pending := by
  unfold State.ownerTakes
  split
  · split
    · exact keeps s
    · rfl
  · rfl

theorem keepsQueue_ownerTakes {take : Taking} (keeps : TakesKeepingQueue take) :
    KeepsQueue s (.next (s.ownerTakes p code c take)) := ⟨_, rfl, State.pending_ownerTakes keeps⟩

theorem keepsQueue_linkTakes (reply : State → Reply) : KeepsQueue s (.next (s.linkTakes p code c reply)) := by
  refine ⟨_, rfl, ?_⟩
  unfold State.linkTakes
  split
  · split <;> rfl
  · rfl

/-- A command that clears the part where it may, and is else taken as any other. -/
theorem keepsQueue_ite_ownerTakes {b : Bool} {t : State} {take : Taking} (cleared : t.pending = s.pending)
    (keeps : TakesKeepingQueue take) : KeepsQueue s (.next (if b then t else s.ownerTakes p code c take)) := by
  cases b
  · exact keepsQueue_ownerTakes keeps
  · exact ⟨t, rfl, cleared⟩

theorem takesKeepingQueue_onSource {take : SourceNo → Taking} (keeps : ∀ i, TakesKeepingQueue (take i)) (b : Byte) :
    TakesKeepingQueue (onSource b take) := fun s =>
  KeptByOperations.onSource (P := fun t => t.pending = s.pending) rfl fun i => keeps i s

theorem takesKeepingQueue_takeConfigure {α : Type} {field : Byte} {value : Half} {value? : SourceNo → Option α}
    {busy : SourceRec → Bool} {write : State → SourceNo → α → State}
    (keeps : ∀ s i v, (write s i v).pending = s.pending) (i : SourceNo) :
    TakesKeepingQueue (takeConfigure p field value value? busy write i) := fun s =>
  KeptByOperations.configure (P := fun t => t.pending = s.pending) rfl i fun v _ _ => keeps s i v

end

theorem takesKeepingQueue_takeWake : TakesKeepingQueue takeWake := fun s => by
  unfold takeWake
  dsimp only
  split <;> rfl

/-- Every host command keeps the queue. -/
theorem exec_keepsQueue_of_host {c : Instr} {p : Port} {code : HostCode} {args : List Byte}
    (host : c.hostForm = some (p, code, args)) (s : State) : KeepsQueue s (exec c s) := by
  cases c <;> cases host
  case status | repeatAnswer => exact keepsQueue_linkTakes _
  case portClear =>
    refine ⟨_, rfl, ?_⟩
    split
    · split <;> rfl
    · rfl
  case dormant | reset => exact keepsQueue_ite_ownerTakes rfl fun _ => rfl
  case wake => exact keepsQueue_ite_ownerTakes rfl takesKeepingQueue_takeWake
  case top | listClaims => exact keepsQueue_ownerTakes fun _ => rfl
  case claimTop | setThreshold | readIncident | readSetting | writeSettingControlSet | writeSettingWatchHoldGroupMask |
      writeSettingWatchHoldSegmentMask | writeSettingLastResetCause =>
    refine keepsQueue_ownerTakes fun s => ?_
    simp only [takeClaimTop, takeSetThreshold, takeReadIncident, takeReadSetting, takeWriteSetting, takeWriteCause]
    (repeat' split) <;> simp
  case watch =>
    refine keepsQueue_ownerTakes fun s => ?_
    unfold takeWatch
    split <;> rfl
  case claim | complete | defer | post | bind | unbind | lend | recallLoan | returnLoan | enable | disable =>
    refine keepsQueue_ownerTakes (takesKeepingQueue_onSource (fun i s => ?_) _)
    simp only [takeClaimOf, takeComplete, takeDefer, takePost, takeBind, takeUnbind, takeLend, takeRecall, takeReturn,
      takeEnable, takeDisable, boundAnswer]
    (repeat' split) <;> simp
  case readSource => exact keepsQueue_ownerTakes (takesKeepingQueue_onSource (fun _ _ => rfl) _)
  case configureQualify =>
    refine keepsQueue_ownerTakes (takesKeepingQueue_onSource (takesKeepingQueue_takeConfigure fun s i v => ?_) _)
    simp [State.writeQualify]
  case configurePriority | configureGroup | configureTrigger | configureWaitLimit | configureServiceLimit |
      configureFallback | configurePosters =>
    refine keepsQueue_ownerTakes (takesKeepingQueue_onSource (takesKeepingQueue_takeConfigure ?_) _)
    exact fun _ _ _ => rfl

/-- Every happening that no port commands keeps the queue. -/
theorem exec_keepsQueue_of_happening {c : Instr} (happening : c.hostForm = none) (s : State) :
    KeepsQueue s (exec c s) := by
  cases c <;> cases happening <;> refine ⟨_, rfl, ?_⟩
  case chipSelectFall | chipSelectRise | lineRawChange | powerOn => rfl
  case answerFrameSent | qualifyTimeReached | wakingEnd | portClearOfferUnitPart => split <;> rfl
  case portClearSourceTablePart =>
    split
    · simp
    · rfl
  case frameComplete | timerExpiryDelivered | tableCheck =>
    split
    · split <;> rfl
    · rfl
  case qualifiedChange =>
    split
    · split <;> [exact State.pending_takeChange _ _ _ _; rfl]
    · rfl
  case waitExpiry =>
    split
    · split <;> [exact State.pending_escalate _ _ _; rfl]
    · rfl
  case serviceExpiry =>
    split
    · split
      · exact State.pending_retract _ _ _ _
      all_goals rfl
    · rfl
  case wakeReport =>
    split
    · rfl
    · dsimp only
      split <;> rfl
  case resetnLow | resetnRelease | supplyAndRefclkReady =>
    split
    · rfl
    · split <;> rfl

/-- Settles O2: a command is a port's or no port's, and keeps the queue either way. -/
theorem everyCommandAnswersNextAndKeepsTheQueue : Obligations.EveryCommandAnswersNextAndKeepsTheQueue := by
  intro c s
  cases form : c.hostForm with
  | none => exact exec_keepsQueue_of_happening form s
  | some command => exact exec_keepsQueue_of_host form s

end Sys2Proof.Machine
